-- ==== Sys2Proof/Word.lean ====
section
/-! DEFINITION. The one word size of the P8 CPU. -/

namespace Sys2Proof

/-- Every value the P8 moves is 8 bits wide (00_scope.md R5, R7; 20_memory.md R41). -/
abbrev Byte := BitVec 8

/-- A memory or port address is a byte (00_scope.md R7). -/
abbrev Addr := Byte

end Sys2Proof
end

