-- ==== Sys2Proof/Machine/Alu.lean ====
section
/-! DEFINITION. What the arithmetic-logic unit computes (44_arithmetic.md R150, 45_logical.md R180). -/

namespace Sys2Proof.Machine

open Sys2Proof

/-- `a +8 b`: the sum modulo 256 (00_scope.md R8, decision D1; log entry 9). -/
def add8 (a b : Byte) : Byte := a + b

/-- `a -8 b`: the difference modulo 256 (00_scope.md R8, decision D1; log entry 9). -/
def sub8 (a b : Byte) : Byte := a - b

/-- `v -8 1` (44_arithmetic.md R150). -/
def dec8 (v : Byte) : Byte := v - 1#8

/-- Bitwise inclusive OR (45_logical.md R180). -/
def or8 (a b : Byte) : Byte := a ||| b

/-- Bitwise complement (45_logical.md R180). -/
def inv8 (v : Byte) : Byte := ~~~v

/-- `v[6:0] ## 0`: bits 6..0 move up, bit 0 becomes 0, bit 7 is lost (45_logical.md R180). -/
def shl8 (v : Byte) : Byte := (v.extractLsb' 0 7 ++ 0#1 : BitVec (7 + 1))

end Sys2Proof.Machine
end

