-- ==== Sys2Proof/Machine/Event.lean ====
section
/-! DEFINITION. The accesses the CPU makes (00_scope.md R8, R12; 20_memory.md R44, R45, R55). -/

namespace Sys2Proof.Machine

/-- One access, with the byte that was read or written: Rm, Wm, Rp and Wp of 20_memory.md R56. -/
inductive Event where
  | memRead (p : Addr) (v : Byte)
  | memWrite (p : Addr) (v : Byte)
  | portRead (p : Addr) (v : Byte)
  | portWrite (p : Addr) (v : Byte)
deriving DecidableEq, Repr

/-- The accesses that write (20_memory.md R50). -/
def Event.isWrite : Event → Bool
  | .memWrite _ _ | .portWrite _ _ => true
  | .memRead _ _ | .portRead _ _ => false

/-- The accesses to the port space (10_state.md R32). -/
def Event.isPort : Event → Bool
  | .portRead _ _ | .portWrite _ _ => true
  | .memRead _ _ | .memWrite _ _ => false

end Sys2Proof.Machine
end

