-- ==== Sys2Proof/Config.lean ====
section
/-! DEFINITION. What the spec leaves to an implementation: the values this model names, and the free values. -/

namespace Sys2Proof.Config

open Sys2Proof Sys2Proof.Machine

/-- The default of the parameter RESET_IP (10_state.md R34, decision D5). -/
def resetIp : Addr := 0x00#8

/-- What A, R and IR hold in `State.reset`. DESIGN CHOICE, unsafe (log entry 1): the spec says any value. -/
def resetByte : Byte := 0x00#8

/-- What Z holds in `State.reset`. DESIGN CHOICE, unsafe (log entry 1): the spec says 0 or 1. -/
def resetZ : Bool := false

/-- What a memory cell that the memory list does not name holds. DESIGN CHOICE, unsafe (log entry 2): MEM_INIT is
open (20_memory.md R47, decision D6). -/
def unlistedByte : Byte := 0x00#8

/-- FREE VALUE: the byte that port `p` presents to a read made after the accesses `history` (41_input_output.md R90,
decision D7: "any byte, chosen by PORT_ENV, possibly different on every read, possibly depending on earlier port
events"). Each read lengthens the history, so no two reads share a draw. Log entry 5. -/
opaque portEnv (history : List Event) (p : Addr) : Byte

/-- FREE VALUE: the byte read from an address where no memory is fitted, after the accesses `history` (20_memory.md
R46: "a read of an `absent` address returns a draw"). Log entry 4. -/
opaque absentByte (history : List Event) (p : Addr) : Byte

end Sys2Proof.Config
end

