-- ==== Sys2Proof/Syntax.lean ====
section
/-! DEFINITION. The instructions of the P8 CPU: one constructor per row of the "Complete P8 instruction set"
(30_encoding.md R68), and the two fields an opcode byte is made of (R62, R63). -/

namespace Sys2Proof

/-- The 16 operations of the operation-code table (30_encoding.md R62). -/
inductive Operation where
  | inp | out | jmp | jnz | jz | cmp | lda | ldr | sta | str | add | sub | dec | or | inv | shl
deriving DecidableEq, Repr

/-- The five addressing modes in use (30_encoding.md R63). -/
inductive Mode where
  | direct | regA | regR | indirect | immediate
deriving DecidableEq, Repr

/-- An instruction as its fields. `fetch` is the object code 00h, which has no operation of the table (R73). -/
inductive Form where
  | fetch
  | op (o : Operation) (m : Mode) (byte2 : Option Byte)
deriving DecidableEq, Repr

/-- The 60 instructions of 30_encoding.md R68, in its order. A two-byte instruction carries its byte 2:
an address, a port number, a jump target (`n` of the forms named `…Address`) or data (`n` of the forms named `…Imm`). -/
inductive Instr where
  -- the fetch phase alone, object code 00h (R82)
  | fetch
  -- Input/Output (R91 to R94)
  | inAddress (n : Byte) | inP | outAddress (n : Byte) | outP
  -- Program Control (R101 to R111)
  | jmpAddress (n : Byte) | jmpR
  | jnzAddress (n : Byte) | jnzR
  | jzAddress (n : Byte) | jzR
  | cmpAddress (n : Byte) | cmpA | cmpR | cmpM | cmpImm (n : Byte)
  -- Data Transfer (R121 to R134)
  | ldaAddress (n : Byte) | ldaA | ldaR | ldaM | ldaImm (n : Byte)
  | ldrAddress (n : Byte) | ldrA | ldrR | ldrM | ldrImm (n : Byte)
  | staAddress (n : Byte) | staM
  | strAddress (n : Byte) | strM
  -- Arithmetic (R151 to R165)
  | addAddress (n : Byte) | addA | addR | addM | addImm (n : Byte)
  | subAddress (n : Byte) | subA | subR | subM | subImm (n : Byte)
  | decAddress (n : Byte) | decA | decR | decM | decImm (n : Byte)
  -- Logical (R181 to R195)
  | orAddress (n : Byte) | orA | orR | orM | orImm (n : Byte)
  | invAddress (n : Byte) | invA | invR | invM | invImm (n : Byte)
  | shlAddress (n : Byte) | shlA | shlR | shlM | shlImm (n : Byte)
deriving DecidableEq, Repr

/-- The fields of an instruction: the row and column of the opcode map it stands in (30_encoding.md R67). -/
def Instr.form : Instr → Form
  | .fetch => .fetch
  | .inAddress n => .op .inp .direct (some n)
  | .inP => .op .inp .indirect none
  | .outAddress n => .op .out .direct (some n)
  | .outP => .op .out .indirect none
  | .jmpAddress n => .op .jmp .direct (some n)
  | .jmpR => .op .jmp .regR none
  | .jnzAddress n => .op .jnz .direct (some n)
  | .jnzR => .op .jnz .regR none
  | .jzAddress n => .op .jz .direct (some n)
  | .jzR => .op .jz .regR none
  | .cmpAddress n => .op .cmp .direct (some n)
  | .cmpA => .op .cmp .regA none
  | .cmpR => .op .cmp .regR none
  | .cmpM => .op .cmp .indirect none
  | .cmpImm n => .op .cmp .immediate (some n)
  | .ldaAddress n => .op .lda .direct (some n)
  | .ldaA => .op .lda .regA none
  | .ldaR => .op .lda .regR none
  | .ldaM => .op .lda .indirect none
  | .ldaImm n => .op .lda .immediate (some n)
  | .ldrAddress n => .op .ldr .direct (some n)
  | .ldrA => .op .ldr .regA none
  | .ldrR => .op .ldr .regR none
  | .ldrM => .op .ldr .indirect none
  | .ldrImm n => .op .ldr .immediate (some n)
  | .staAddress n => .op .sta .direct (some n)
  | .staM => .op .sta .indirect none
  | .strAddress n => .op .str .direct (some n)
  | .strM => .op .str .indirect none
  | .addAddress n => .op .add .direct (some n)
  | .addA => .op .add .regA none
  | .addR => .op .add .regR none
  | .addM => .op .add .indirect none
  | .addImm n => .op .add .immediate (some n)
  | .subAddress n => .op .sub .direct (some n)
  | .subA => .op .sub .regA none
  | .subR => .op .sub .regR none
  | .subM => .op .sub .indirect none
  | .subImm n => .op .sub .immediate (some n)
  | .decAddress n => .op .dec .direct (some n)
  | .decA => .op .dec .regA none
  | .decR => .op .dec .regR none
  | .decM => .op .dec .indirect none
  | .decImm n => .op .dec .immediate (some n)
  | .orAddress n => .op .or .direct (some n)
  | .orA => .op .or .regA none
  | .orR => .op .or .regR none
  | .orM => .op .or .indirect none
  | .orImm n => .op .or .immediate (some n)
  | .invAddress n => .op .inv .direct (some n)
  | .invA => .op .inv .regA none
  | .invR => .op .inv .regR none
  | .invM => .op .inv .indirect none
  | .invImm n => .op .inv .immediate (some n)
  | .shlAddress n => .op .shl .direct (some n)
  | .shlA => .op .shl .regA none
  | .shlR => .op .shl .regR none
  | .shlM => .op .shl .indirect none
  | .shlImm n => .op .shl .immediate (some n)

/-- The operation of an instruction; `fetch` has none (30_encoding.md R62, R73). -/
def Form.operation : Form → Option Operation
  | .fetch => none
  | .op o _ _ => some o

def Instr.operation (i : Instr) : Option Operation := i.form.operation

end Sys2Proof
end

