-- ==== Sys2Proof/Machine/State.lean ====
section
/-! DEFINITION. The state of the machine, the reasons a step can stop, and the state after reset. -/

namespace Sys2Proof.Machine

open Sys2Proof

/-- What is fitted at a memory address: MEM_KIND of 00_scope.md R6, 20_memory.md R46. -/
inductive MemKind where
  | ram | rom | absent
deriving DecidableEq, Repr

/-- A range of memory addresses, both ends in it, with what is fitted there (20_memory.md R47: "a platform may mark
ranges `rom` or `absent`"). -/
structure MemRegion where
  first : Addr
  last : Addr
  kind : MemKind
deriving DecidableEq, Repr

/-- Memory contents: cells in strictly rising order of address, none of them holding `Config.unlistedByte`, which is
what an address not in the list holds. -/
abbrev Memory := List Host.Cell

/-- The state of a P8 machine (10_state.md, sections 1 to 7). Every field is plain data. -/
structure State where
  /-- The accumulator (R20). -/
  a : Byte
  /-- The second general register, also the address register of the indirect mode (R21). -/
  r : Byte
  /-- The instruction pointer (R23). -/
  ip : Addr
  /-- The zero flag; `true` is Z = 1 (R26). -/
  z : Bool
  /-- The instruction register (R27). -/
  ir : Byte
  /-- The 256 cells of memory (R31). -/
  mem : Memory
  /-- MEM_KIND: the first region that holds an address gives its kind; an address in none is ram (20_memory.md R46,
  R47). No step changes it. Log entry 3. -/
  memMap : List MemRegion
  /-- The answers PORT_ENV has already fixed for the next port reads, oldest first; empty when no PORT_ENV is given
  (70_reset_and_hazards.md R235, decision D7). Log entry 5. -/
  portScript : List Byte
  /-- The MODEL's own: the accesses made so far, newest first (00_scope.md R12, 20_memory.md R50). Log entry 6. -/
  trace : List Event
  /-- The MODEL's own: the clock cycles spent so far (70_reset_and_hazards.md R240, decision D14). Log entry 7. -/
  clock : Nat
deriving DecidableEq, Repr

/-- Why the machine stops with a fault.
`illegalOpcode b at s`: raised by the step when FETCH reads, at address `at`, a byte `b` that is not one of the 60
listed object codes (60_exceptions.md R211); `s` is the state the fault leaves, in which FETCH has happened and nothing
else. Safe (log entry 11): what the real CPU does with such a byte is unknown. -/
inductive Fault where
  | illegalOpcode (b : Byte) (at_ : Addr) (s : State)
deriving DecidableEq, Repr

/-- Why an instruction has no meaning.
`notModelled`: raised only by an arm of `exec` whose instruction has no meaning yet; no arm is so. Safe. -/
inductive Refusal where
  | notModelled (mnemonic : String)
deriving DecidableEq, Repr

/-- What a step or a meaning answers. -/
abbrev Result := Host.Outcome State Fault Refusal

/-- What the host and the draws fix before a run (70_reset_and_hazards.md R230, R235; 10_state.md R34). The defaults
are the spec's (RESET_IP = 00h, all ram, no PORT_ENV) or the values log entries 1 and 2 name. -/
structure Boot where
  resetIp : Addr := Config.resetIp
  a : Byte := Config.resetByte
  r : Byte := Config.resetByte
  z : Bool := Config.resetZ
  ir : Byte := Config.resetByte
  memInit : Memory := []
  memMap : List MemRegion := []
  portScript : List Byte := []
deriving DecidableEq, Repr

/-- The state in which the first step is taken, for every choice of the host and every draw (70_reset_and_hazards.md
R230, R231). -/
def State.afterReset (b : Boot) : State :=
  { a := b.a, r := b.r, ip := b.resetIp, z := b.z, ir := b.ir, mem := b.memInit, memMap := b.memMap,
    portScript := b.portScript, trace := [], clock := 0 }

/-- The machine right after reset, with every choice at its default. -/
def State.reset : State := State.afterReset {}

end Sys2Proof.Machine
end

