-- ==== Sys2Proof/Machine/Ops.lean ====
section
/-! DEFINITION. The named operations over memory, ports and registers (00_scope.md R8), how an instruction ends, and
the one fault. The P8 takes no exception and returns from none (60_exceptions.md R210 to R215), so there is no entry
and no return to write here: `raiseIllegalOpcode` is the only `raise` of the spec. -/

namespace Sys2Proof.Machine

open Sys2Proof

/-! ### Memory contents -/

/-- The byte held at address `k`. -/
def Memory.read : Memory → Nat → Byte
  | [], _ => Config.unlistedByte
  | (p, v) :: m, k => if k = p then v else Memory.read m k

/-- A cell in canonical form: nothing is listed that reads the same unlisted. -/
def Memory.cons (k : Nat) (v : Byte) (m : Memory) : Memory :=
  if v = Config.unlistedByte then m else (k, v) :: m

/-- The contents with `v` at address `k`. -/
def Memory.write : Memory → Nat → Byte → Memory
  | [], k, v => Memory.cons k v []
  | (p, w) :: m, k, v =>
    if k < p then Memory.cons k v ((p, w) :: m)
    else if k = p then Memory.cons k v m
    else (p, w) :: Memory.write m k v

/-- The canonical form, for the cells at addresses `lo` and above: addresses strictly rising and below 256, no cell
holding what an unlisted address holds. -/
def Memory.wfFrom : Nat → Memory → Bool
  | _, [] => true
  | lo, (p, v) :: m => decide (lo ≤ p) && decide (p < 256) && decide (v ≠ Config.unlistedByte) && Memory.wfFrom (p + 1) m

/-- The canonical form of memory contents. -/
def Memory.wf (m : Memory) : Bool := Memory.wfFrom 0 m

/-! ### The address map -/

/-- Whether a region holds an address. -/
def MemRegion.holds (g : MemRegion) (p : Addr) : Bool :=
  decide (g.first.toNat ≤ p.toNat) && decide (p.toNat ≤ g.last.toNat)

/-- The kind a list of regions gives an address: the first region that holds it, and ram if none does
(20_memory.md R47). -/
def kindIn : List MemRegion → Addr → MemKind
  | [], _ => .ram
  | g :: gs, p => if g.holds p then g.kind else kindIn gs p

/-- MEM_KIND at an address. -/
def State.kindAt (s : State) (p : Addr) : MemKind := kindIn s.memMap p

/-! ### Registers -/

def State.setA (s : State) (v : Byte) : State := { s with a := v }

def State.setR (s : State) (v : Byte) : State := { s with r := v }

def State.setZ (s : State) (v : Bool) : State := { s with z := v }

def State.setIp (s : State) (v : Addr) : State := { s with ip := v }

def State.setIr (s : State) (v : Byte) : State := { s with ir := v }

/-- `IP <- IP +8 1`: IP is 8 bits and wraps from FFh to 00h (10_state.md R25). -/
def State.incIp (s : State) : State := s.setIp (s.ip + 1#8)

/-! ### Accesses -/

/-- Appends an access to the trace (20_memory.md R50). -/
def State.record (s : State) (e : Event) : State := { s with trace := e :: s.trace }

/-- The byte a memory read of `p` returns if it is the next access: what the cell holds, and a draw where nothing is
fitted (20_memory.md R46). -/
def State.cell (s : State) (p : Addr) : Byte :=
  match s.kindAt p with
  | .ram | .rom => s.mem.read p.toNat
  | .absent => Config.absentByte s.trace p

/-- `MemRead(p, 1)`: one event and no other effect (20_memory.md R44, R46). -/
def State.memRead (s : State) (p : Addr) : Byte × State := (s.cell p, s.record (.memRead p (s.cell p)))

/-- `MemWrite(p, 1, v)`: one event; the cell is replaced where ram is fitted, and nothing changes elsewhere
(20_memory.md R45, R46). -/
def State.memWrite (s : State) (p : Addr) (v : Byte) : State :=
  match s.kindAt p with
  | .ram => { s with mem := s.mem.write p.toNat v }.record (.memWrite p v)
  | .rom | .absent => s.record (.memWrite p v)

/-- The byte port `p` presents if it is the next access: what PORT_ENV has fixed, else a draw
(41_input_output.md R90). -/
def State.portByte (s : State) (p : Addr) : Byte :=
  match s.portScript with
  | v :: _ => v
  | [] => Config.portEnv s.trace p

/-- `PortRead(p)`: one event; the answer PORT_ENV had fixed is used up (20_memory.md R55, 41_input_output.md R90). -/
def State.portRead (s : State) (p : Addr) : Byte × State :=
  (s.portByte p, { s with portScript := s.portScript.tail }.record (.portRead p (s.portByte p)))

/-- `PortWrite(p, v)`: one event, no change of CPU state or memory (41_input_output.md R90). -/
def State.portWrite (s : State) (p : Addr) (v : Byte) : State := s.record (.portWrite p v)

/-! ### Clocks, the end of an instruction, the fault -/

/-- The three clocks of FETCH (40_fetch.md R81). -/
def fetchClocks : Nat := 3

/-- Lets clock cycles pass. -/
def State.spend (s : State) (n : Nat) : State := { s with clock := s.clock + n }

/-- The instruction is done. `figure` is its "Clock Cycles" (70_reset_and_hazards.md R241), of which FETCH has already
spent its three. -/
def State.complete (s : State) (figure : Nat) : Result := .next (s.spend (figure - fetchClocks))

/-- `raise IllegalOpcode(b)`: `s` is the state after FETCH has read `b`, so the byte stood at IP - 1 (mod 256)
(60_exceptions.md R211). -/
def raiseIllegalOpcode (b : Byte) (s : State) : Result := .fault (.illegalOpcode b (s.ip - 1#8) s)

/-! ### Placing bytes from outside -/

/-- The host places a byte in memory: the address holds `v` and, where nothing was fitted, has ram. Log entry 15. -/
def State.place (s : State) (p : Addr) (v : Byte) : State :=
  { s with
    mem := s.mem.write p.toNat v
    memMap := match s.kindAt p with
      | .absent => ⟨p, p, .ram⟩ :: s.memMap
      | .ram | .rom => s.memMap }

end Sys2Proof.Machine
end

