-- ==== Sys2Proof/Machine/Operands.lean ====
section
/-! DEFINITION. The operand forms (30_encoding.md R66, 40_fetch.md R83): `Operand(mode)` and the effective addresses.

A meaning runs after FETCH. Its byte 2, where it has one, is the field `n` the decoder read; the access that reads it is
made here, at IP (log entry 13). -/

namespace Sys2Proof.Machine

open Sys2Proof

/-- The read of byte 2 whose value is `n`, without an increment of IP, as the direct jumps make it
(42_program_control.md R101). -/
def State.readByte2 (s : State) (n : Byte) : State := s.record (.memRead s.ip n)

/-- `n <- FetchByte()` for byte 2: one read at IP and `IP <- IP +8 1` (00_scope.md R8, 40_fetch.md R84). -/
def State.takeByte2 (s : State) (n : Byte) : State := (s.readByte2 n).incIp

/-- Direct mode: the effective address is byte 2 (43_data_transfer.md R120). -/
def eaDirect (n : Byte) : Addr := n

/-- Indirect mode: the effective address is the content of R when the instruction starts (43_data_transfer.md R120,
40_fetch.md R83). -/
def eaIndirect (s : State) : Addr := s.r

/-- Mode 000: the memory cell byte 2 addresses. -/
def operandDirect (n : Byte) (s : State) : Byte × State := (s.takeByte2 n).memRead (eaDirect n)

/-- Mode 010: A. -/
def operandA (s : State) : Byte × State := (s.a, s)

/-- Mode 011: R. -/
def operandR (s : State) : Byte × State := (s.r, s)

/-- Mode 100: the memory cell R addresses. -/
def operandIndirect (s : State) : Byte × State := s.memRead (eaIndirect s)

/-- Mode 110: byte 2 itself. -/
def operandImmediate (n : Byte) (s : State) : Byte × State := (n, s.takeByte2 n)

/-- Mode 000 of IN: the port byte 2 addresses (30_encoding.md R66). -/
def operandPortDirect (n : Byte) (s : State) : Byte × State := (s.takeByte2 n).portRead (eaDirect n)

/-- Mode 100 of IN: the port R addresses (30_encoding.md R66). -/
def operandPortIndirect (s : State) : Byte × State := s.portRead (eaIndirect s)

end Sys2Proof.Machine
end

