-- ==== Sys2Proof/Machine/Arithmetic.lean ====
section
/-! DEFINITION. ADD, SUB and DEC (44_arithmetic.md). None of them writes Z (R150). -/

namespace Sys2Proof.Machine

open Sys2Proof

/-- `A <- A +8 v`. -/
def addTo (o : Byte × State) (figure : Nat) : Result := (o.2.setA (add8 o.2.a o.1)).complete figure

/-- `A <- A -8 v`: the operand is subtracted from A. -/
def subFrom (o : Byte × State) (figure : Nat) : Result := (o.2.setA (sub8 o.2.a o.1)).complete figure

/-- `A <- v -8 1`: the old A is no operand and no cell is written (R150). -/
def decTo (o : Byte × State) (figure : Nat) : Result := (o.2.setA (dec8 o.1)).complete figure

/-- `ADD address` (44_arithmetic.md R151). -/
def execAddAddress (n : Byte) (s : State) : Result := addTo (operandDirect n s) 9

/-- `ADD A` (44_arithmetic.md R152). -/
def execAddA (s : State) : Result := addTo (operandA s) 4

/-- `ADD R` (44_arithmetic.md R153). -/
def execAddR (s : State) : Result := addTo (operandR s) 4

/-- `ADD M` (44_arithmetic.md R154). -/
def execAddM (s : State) : Result := addTo (operandIndirect s) 7

/-- `ADD I data` (44_arithmetic.md R155). -/
def execAddImm (n : Byte) (s : State) : Result := addTo (operandImmediate n s) 6

/-- `SUB address` (44_arithmetic.md R156). -/
def execSubAddress (n : Byte) (s : State) : Result := subFrom (operandDirect n s) 9

/-- `SUB A` (44_arithmetic.md R157). -/
def execSubA (s : State) : Result := subFrom (operandA s) 4

/-- `SUB R` (44_arithmetic.md R158). -/
def execSubR (s : State) : Result := subFrom (operandR s) 4

/-- `SUB M` (44_arithmetic.md R159). -/
def execSubM (s : State) : Result := subFrom (operandIndirect s) 7

/-- `SUB I data` (44_arithmetic.md R160; its clock count is decision D12, log entry 17). -/
def execSubImm (n : Byte) (s : State) : Result := subFrom (operandImmediate n s) 6

/-- `DEC address` (44_arithmetic.md R161). -/
def execDecAddress (n : Byte) (s : State) : Result := decTo (operandDirect n s) 11

/-- `DEC A` (44_arithmetic.md R162). -/
def execDecA (s : State) : Result := decTo (operandA s) 4

/-- `DEC R`: both R and A take the result (44_arithmetic.md R163, conflict C5). -/
def execDecR (s : State) : Result := ((s.setA (dec8 s.r)).setR (dec8 s.r)).complete 7

/-- `DEC M` (44_arithmetic.md R164). -/
def execDecM (s : State) : Result := decTo (operandIndirect s) 9

/-- `DEC I data` (44_arithmetic.md R165). -/
def execDecImm (n : Byte) (s : State) : Result := decTo (operandImmediate n s) 8

end Sys2Proof.Machine
end

