-- ==== Sys2Proof/Machine/DataTransfer.lean ====
section
/-! DEFINITION. LDA, LDR, STA and STR (43_data_transfer.md). -/

namespace Sys2Proof.Machine

open Sys2Proof

/-- `A <- operand`. -/
def loadA (o : Byte × State) (figure : Nat) : Result := (o.2.setA o.1).complete figure

/-- `R <- operand`. -/
def loadR (o : Byte × State) (figure : Nat) : Result := (o.2.setR o.1).complete figure

/-- `LDA address` (43_data_transfer.md R121). -/
def execLdaAddress (n : Byte) (s : State) : Result := loadA (operandDirect n s) 9

/-- `LDA A`: no operation (43_data_transfer.md R122). -/
def execLdaA (s : State) : Result := s.complete 4

/-- `LDA R` (43_data_transfer.md R123). -/
def execLdaR (s : State) : Result := loadA (operandR s) 4

/-- `LDA M` (43_data_transfer.md R124). -/
def execLdaM (s : State) : Result := loadA (operandIndirect s) 7

/-- `LDA I data` (43_data_transfer.md R125). -/
def execLdaImm (n : Byte) (s : State) : Result := loadA (operandImmediate n s) 6

/-- `LDR address` (43_data_transfer.md R126). -/
def execLdrAddress (n : Byte) (s : State) : Result := loadR (operandDirect n s) 9

/-- `LDR A`: R takes A, and A keeps its value (43_data_transfer.md R127, conflict C3). -/
def execLdrA (s : State) : Result := loadR (operandA s) 4

/-- `LDR R`: no operation (43_data_transfer.md R128). -/
def execLdrR (s : State) : Result := s.complete 4

/-- `LDR M`: the address is the old R (43_data_transfer.md R129). -/
def execLdrM (s : State) : Result := loadR (operandIndirect s) 7

/-- `LDR I data` (43_data_transfer.md R130). -/
def execLdrImm (n : Byte) (s : State) : Result := loadR (operandImmediate n s) 6

/-- A store in direct mode: byte 2 is read before the write (R131, R133; 20_memory.md R50). -/
def storeDirect (n v : Byte) (s : State) : Result := ((s.takeByte2 n).memWrite (eaDirect n) v).complete 9

/-- A store in indirect mode (R132, R134). -/
def storeIndirect (v : Byte) (s : State) : Result := (s.memWrite (eaIndirect s) v).complete 7

/-- `STA address` (43_data_transfer.md R131). -/
def execStaAddress (n : Byte) (s : State) : Result := storeDirect n s.a s

/-- `STA M` (43_data_transfer.md R132). -/
def execStaM (s : State) : Result := storeIndirect s.a s

/-- `STR address` (43_data_transfer.md R133). -/
def execStrAddress (n : Byte) (s : State) : Result := storeDirect n s.r s

/-- `STR M`: the cell receives its own address (43_data_transfer.md R134). -/
def execStrM (s : State) : Result := storeIndirect s.r s

end Sys2Proof.Machine
end

