-- ==== Sys2Proof/WellFormed.lean ====
section
/-! DEFINITION. Which forms are instructions of the P8: the opcode map (30_encoding.md R67) and the length rule (R64). -/

namespace Sys2Proof

/-- The ticks of the opcode map (30_encoding.md R67): which operation takes which mode. -/
def listed : Operation → Mode → Bool
  | .inp, .direct | .inp, .indirect | .out, .direct | .out, .indirect => true
  | .inp, _ | .out, _ => false
  | .jmp, .direct | .jmp, .regR | .jnz, .direct | .jnz, .regR | .jz, .direct | .jz, .regR => true
  | .jmp, _ | .jnz, _ | .jz, _ => false
  | .sta, .direct | .sta, .indirect | .str, .direct | .str, .indirect => true
  | .sta, _ | .str, _ => false
  | .cmp, _ | .lda, _ | .ldr, _ | .add, _ | .sub, _ | .dec, _ | .or, _ | .inv, _ | .shl, _ => true

/-- Direct and immediate mode have a byte 2, the others have none (30_encoding.md R64). -/
def Mode.hasByte2 : Mode → Bool
  | .direct | .immediate => true
  | .regA | .regR | .indirect => false

/-- A form is an instruction when the map lists its operation with its mode, and byte 2 is present exactly when the
mode asks for it. FETCH is one byte although its mode field is 000 (30_encoding.md R64, R67, R73). -/
def Form.wf : Form → Bool
  | .fetch => true
  | .op o m byte2 => listed o m && (byte2.isSome == m.hasByte2)

/-- An instruction is well-formed when its form is. -/
abbrev Instr.WellFormed (i : Instr) : Prop := i.form.wf = true

end Sys2Proof
end

