-- ==== Sys2Proof/Decode.lean ====
section
/-! DEFINITION. The decoder, written from the listing of object codes (30_encoding.md R68, R74), and after it the
encoder, written from the two field tables (R60, R62, R63). -/

namespace Sys2Proof

/-- What a row of the listing stands for: a one-byte instruction, or a two-byte one that takes its byte 2 (R60). -/
inductive Entry where
  | one (i : Instr)
  | two (f : Byte → Instr)

/-- A row of the listing: byte 1 in full (mask FFh, 30_encoding.md R74) and what it stands for. -/
structure Row where
  byte1 : Byte
  entry : Entry

/-- FETCH and the Input/Output rows of 30_encoding.md R68. -/
def rowsInputOutput : List Row :=
  [⟨0x00#8, .one .fetch⟩,
   ⟨0x08#8, .two .inAddress⟩, ⟨0x0C#8, .one .inP⟩,
   ⟨0x10#8, .two .outAddress⟩, ⟨0x14#8, .one .outP⟩]

/-- The Program Control rows of 30_encoding.md R68. -/
def rowsProgramControl : List Row :=
  [⟨0x20#8, .two .jmpAddress⟩, ⟨0x23#8, .one .jmpR⟩,
   ⟨0x28#8, .two .jnzAddress⟩, ⟨0x2B#8, .one .jnzR⟩,
   ⟨0x30#8, .two .jzAddress⟩, ⟨0x33#8, .one .jzR⟩,
   ⟨0x38#8, .two .cmpAddress⟩, ⟨0x3A#8, .one .cmpA⟩, ⟨0x3B#8, .one .cmpR⟩,
   ⟨0x3C#8, .one .cmpM⟩, ⟨0x3E#8, .two .cmpImm⟩]

/-- The Data Transfer rows of 30_encoding.md R68. -/
def rowsDataTransfer : List Row :=
  [⟨0x40#8, .two .ldaAddress⟩, ⟨0x42#8, .one .ldaA⟩, ⟨0x43#8, .one .ldaR⟩,
   ⟨0x44#8, .one .ldaM⟩, ⟨0x46#8, .two .ldaImm⟩,
   ⟨0x48#8, .two .ldrAddress⟩, ⟨0x4A#8, .one .ldrA⟩, ⟨0x4B#8, .one .ldrR⟩,
   ⟨0x4C#8, .one .ldrM⟩, ⟨0x4E#8, .two .ldrImm⟩,
   ⟨0x50#8, .two .staAddress⟩, ⟨0x54#8, .one .staM⟩,
   ⟨0x58#8, .two .strAddress⟩, ⟨0x5C#8, .one .strM⟩]

/-- The Arithmetic rows of 30_encoding.md R68. -/
def rowsArithmetic : List Row :=
  [⟨0x60#8, .two .addAddress⟩, ⟨0x62#8, .one .addA⟩, ⟨0x63#8, .one .addR⟩,
   ⟨0x64#8, .one .addM⟩, ⟨0x66#8, .two .addImm⟩,
   ⟨0x68#8, .two .subAddress⟩, ⟨0x6A#8, .one .subA⟩, ⟨0x6B#8, .one .subR⟩,
   ⟨0x6C#8, .one .subM⟩, ⟨0x6E#8, .two .subImm⟩,
   ⟨0x70#8, .two .decAddress⟩, ⟨0x72#8, .one .decA⟩, ⟨0x73#8, .one .decR⟩,
   ⟨0x74#8, .one .decM⟩, ⟨0x76#8, .two .decImm⟩]

/-- The Logical rows of 30_encoding.md R68. -/
def rowsLogical : List Row :=
  [⟨0x80#8, .two .orAddress⟩, ⟨0x82#8, .one .orA⟩, ⟨0x83#8, .one .orR⟩,
   ⟨0x84#8, .one .orM⟩, ⟨0x86#8, .two .orImm⟩,
   ⟨0x88#8, .two .invAddress⟩, ⟨0x8A#8, .one .invA⟩, ⟨0x8B#8, .one .invR⟩,
   ⟨0x8C#8, .one .invM⟩, ⟨0x8E#8, .two .invImm⟩,
   ⟨0x90#8, .two .shlAddress⟩, ⟨0x92#8, .one .shlA⟩, ⟨0x93#8, .one .shlR⟩,
   ⟨0x94#8, .one .shlM⟩, ⟨0x96#8, .two .shlImm⟩]

/-- The "Complete P8 instruction set": 60 rows (30_encoding.md R68). -/
def rows : List Row :=
  rowsInputOutput ++ rowsProgramControl ++ rowsDataTransfer ++ rowsArithmetic ++ rowsLogical

/-- The entry of the row whose byte 1 is `b`, if there is one. -/
def lookup (b : Byte) : List Row → Option Entry
  | [] => none
  | row :: rest => if row.byte1 = b then some row.entry else lookup b rest

/-- Why bytes are not an instruction. `undefinedByte`: the first byte is one of the 196 unlisted ones (30_encoding.md
R69; safe, log entry 11). `truncated`: a two-byte instruction without its byte 2, or no byte at all; the machine never
meets it, since a fetch always gives two bytes (safe). -/
inductive DecodeError where
  | undefinedByte (b : Byte)
  | truncated
deriving DecidableEq, Repr

/-- The decoder, total on any bytes (30_encoding.md R74): the first instruction and the bytes after it. -/
def decode : List Byte → Except DecodeError (Instr × List Byte)
  | [] => .error .truncated
  | b :: rest =>
    match lookup b rows with
    | none => .error (.undefinedByte b)
    | some (.one i) => .ok (i, rest)
    | some (.two f) =>
      match rest with
      | [] => .error .truncated
      | n :: rest' => .ok (f n, rest')

/-- The 5-bit operation code (30_encoding.md R62). -/
def Operation.code : Operation → BitVec 5
  | .inp => 0b00001#5
  | .out => 0b00010#5
  | .jmp => 0b00100#5
  | .jnz => 0b00101#5
  | .jz => 0b00110#5
  | .cmp => 0b00111#5
  | .lda => 0b01000#5
  | .ldr => 0b01001#5
  | .sta => 0b01010#5
  | .str => 0b01011#5
  | .add => 0b01100#5
  | .sub => 0b01101#5
  | .dec => 0b01110#5
  | .or => 0b10000#5
  | .inv => 0b10001#5
  | .shl => 0b10010#5

/-- The 3-bit addressing-mode code (30_encoding.md R63). -/
def Mode.code : Mode → BitVec 3
  | .direct => 0b000#3
  | .regA => 0b010#3
  | .regR => 0b011#3
  | .indirect => 0b100#3
  | .immediate => 0b110#3

/-- Byte 1: the operation in bits 7..3, the mode in bits 2..0 (30_encoding.md R60, R61); FETCH is 00h (R73). -/
def Form.byte1 : Form → Byte
  | .fetch => 0x00#8
  | .op o m _ => (o.code ++ m.code : BitVec (5 + 3))

/-- The bytes of a form, byte 1 at the lower address (20_memory.md R40). -/
def Form.bytes : Form → List Byte
  | .fetch => [Form.fetch.byte1]
  | .op o m byte2 => (Form.op o m byte2).byte1 :: byte2.toList

/-- The encoder: the bytes of an instruction. -/
def encode (i : Instr) : List Byte := i.form.bytes

/-- The instruction's length in bytes (30_encoding.md R64). -/
def Instr.length (i : Instr) : Nat := (encode i).length

/-- The two bytes of a word numbered as spec/opcode_table.json numbers its bits: byte 1 in bits 7..0, byte 2 in bits
15..8, every bit at or above `nbits` 0. -/
def wordBytes (nbits w : Nat) : List Byte :=
  [BitVec.ofNat 8 (w % 2 ^ nbits), BitVec.ofNat 8 (w % 2 ^ nbits / 256)]

/-- What the decoder reads from a word of `nbits` bits. -/
def decodeTableWord (nbits w : Nat) : Option Instr :=
  match decode (wordBytes nbits w) with
  | .ok (i, _) => some i
  | .error _ => none

end Sys2Proof
end

