-- ==== Sys2Proof/Machine/Fetch.lean ====
section
/-! DEFINITION. The FETCH phase, the bytes it gives the decoder, and FETCH as an instruction (40_fetch.md). -/

namespace Sys2Proof.Machine

open Sys2Proof

/-- The first clocks of every instruction: `IR <- MemRead(IP, 1); IP <- IP +8 1` (40_fetch.md R81). -/
def State.fetchPhase (s : State) : State :=
  (((s.memRead s.ip).2.setIr (s.memRead s.ip).1).incIp).spend fetchClocks

/-- The bytes the decoder is given: byte 1, and the byte a read at the next address returns after FETCH. The second is
looked at here and recorded as an access only by a meaning that reads it (log entry 13). -/
def State.fetchBytes (s : State) : List Byte := [s.cell s.ip, s.fetchPhase.cell (s.ip + 1#8)]

/-- `FETCH`, object code 00h: nothing after the FETCH phase (40_fetch.md R82, decision D4; log entry 10). -/
def execFetch (s : State) : Result := s.complete 3

end Sys2Proof.Machine
end

