-- ==== Sys2Proof/Machine/InputOutput.lean ====
section
/-! DEFINITION. IN and OUT (41_input_output.md). -/

namespace Sys2Proof.Machine

open Sys2Proof

/-- `A <- PortRead(…)`. -/
def inTo (o : Byte × State) (figure : Nat) : Result := (o.2.setA o.1).complete figure

/-- `IN address` (41_input_output.md R91). -/
def execInAddress (n : Byte) (s : State) : Result := inTo (operandPortDirect n s) 9

/-- `IN P` (41_input_output.md R92). -/
def execInP (s : State) : Result := inTo (operandPortIndirect s) 7

/-- `OUT address` (41_input_output.md R93). -/
def execOutAddress (n : Byte) (s : State) : Result := ((s.takeByte2 n).portWrite (eaDirect n) s.a).complete 9

/-- `OUT P` (41_input_output.md R94). -/
def execOutP (s : State) : Result := (s.portWrite (eaIndirect s) s.a).complete 7

end Sys2Proof.Machine
end

