-- ==== Sys2Proof/Machine/Logical.lean ====
section
/-! DEFINITION. OR, INV and SHL (45_logical.md). None of them writes Z (R180). -/

namespace Sys2Proof.Machine

open Sys2Proof

/-- `A <- A | v`. -/
def orTo (o : Byte × State) (figure : Nat) : Result := (o.2.setA (or8 o.2.a o.1)).complete figure

/-- `A <- ~v`: the old A is no operand and no cell is written (R180). -/
def invTo (o : Byte × State) (figure : Nat) : Result := (o.2.setA (inv8 o.1)).complete figure

/-- `A <- v[6:0] ## 0`: the old A is no operand and no cell is written (R180). -/
def shlTo (o : Byte × State) (figure : Nat) : Result := (o.2.setA (shl8 o.1)).complete figure

/-- `OR address` (45_logical.md R181). -/
def execOrAddress (n : Byte) (s : State) : Result := orTo (operandDirect n s) 9

/-- `OR A` (45_logical.md R182). -/
def execOrA (s : State) : Result := orTo (operandA s) 4

/-- `OR R` (45_logical.md R183). -/
def execOrR (s : State) : Result := orTo (operandR s) 4

/-- `OR M` (45_logical.md R184). -/
def execOrM (s : State) : Result := orTo (operandIndirect s) 7

/-- `OR I data` (45_logical.md R185). -/
def execOrImm (n : Byte) (s : State) : Result := orTo (operandImmediate n s) 6

/-- `INV address` (45_logical.md R186). -/
def execInvAddress (n : Byte) (s : State) : Result := invTo (operandDirect n s) 9

/-- `INV A` (45_logical.md R187). -/
def execInvA (s : State) : Result := invTo (operandA s) 4

/-- `INV R`: both R and A take the result (45_logical.md R188, conflict C5). -/
def execInvR (s : State) : Result := ((s.setA (inv8 s.r)).setR (inv8 s.r)).complete 5

/-- `INV M` (45_logical.md R189). -/
def execInvM (s : State) : Result := invTo (operandIndirect s) 7

/-- `INV I data` (45_logical.md R190). -/
def execInvImm (n : Byte) (s : State) : Result := invTo (operandImmediate n s) 6

/-- `SHL address` (45_logical.md R191). -/
def execShlAddress (n : Byte) (s : State) : Result := shlTo (operandDirect n s) 11

/-- `SHL A` (45_logical.md R192). -/
def execShlA (s : State) : Result := shlTo (operandA s) 4

/-- `SHL R`: both R and A take the result (45_logical.md R193, conflicts C5, C7). -/
def execShlR (s : State) : Result := ((s.setA (shl8 s.r)).setR (shl8 s.r)).complete 7

/-- `SHL M` (45_logical.md R194). -/
def execShlM (s : State) : Result := shlTo (operandIndirect s) 9

/-- `SHL I data` (45_logical.md R195). -/
def execShlImm (n : Byte) (s : State) : Result := shlTo (operandImmediate n s) 8

end Sys2Proof.Machine
end

