-- ==== Sys2Proof/Machine/Flags.lean ====
section
/-! DEFINITION. The one flag, Z (10_state.md R26). -/

namespace Sys2Proof.Machine

open Sys2Proof

/-- The "Zero Condition Bit": 1 exactly when ALU(F) is zero (00_scope.md R11). -/
def zeroCondition (f : Byte) : Bool := f == 0x00#8

/-- What CMP writes into Z: the zero condition of A - v, both ways (42_program_control.md R112, conflict C9). -/
def compareZ (a v : Byte) : Bool := zeroCondition (sub8 a v)

end Sys2Proof.Machine
end

