-- ==== Sys2Proof/Machine/ProgramControl.lean ====
section
/-! DEFINITION. JMP, JNZ, JZ and CMP (42_program_control.md). -/

namespace Sys2Proof.Machine

open Sys2Proof

/-- `n <- MemRead(IP, 1); IP <- n`: the target is byte 2 itself (R100, R101; conflicts C2, C11). -/
def jumpDirect (n : Byte) (s : State) : State := (s.readByte2 n).setIp n

/-- `IP <- R` (R100, R102; conflict C6). -/
def jumpRegister (s : State) : State := s.setIp s.r

/-- A conditional jump in direct form: not taken, byte 2 is skipped without being read (R103, R105; conflict C10). -/
def jumpDirectIf (taken : Bool) (n : Byte) (s : State) : Result :=
  if taken then (jumpDirect n s).complete 6 else s.incIp.complete 4

/-- A conditional jump in register form: not taken, nothing happens (R104, R106). -/
def jumpRegisterIf (taken : Bool) (s : State) : Result :=
  if taken then (jumpRegister s).complete 4 else s.complete 4

/-- `JMP address` (42_program_control.md R101). -/
def execJmpAddress (n : Byte) (s : State) : Result := (jumpDirect n s).complete 6

/-- `JMP R` (42_program_control.md R102). -/
def execJmpR (s : State) : Result := (jumpRegister s).complete 4

/-- `JNZ address`: taken when Z = 0 (42_program_control.md R103). -/
def execJnzAddress (n : Byte) (s : State) : Result := jumpDirectIf (!s.z) n s

/-- `JNZ R`: taken when Z = 0 (42_program_control.md R104). -/
def execJnzR (s : State) : Result := jumpRegisterIf (!s.z) s

/-- `JZ address`: taken when Z = 1 (42_program_control.md R105). -/
def execJzAddress (n : Byte) (s : State) : Result := jumpDirectIf s.z n s

/-- `JZ R`: taken when Z = 1 (42_program_control.md R106). -/
def execJzR (s : State) : Result := jumpRegisterIf s.z s

/-- `Z <- (if A = v then 1 else 0)`, computed as the zero condition of A - v (R112). -/
def compareWith (o : Byte × State) (figure : Nat) : Result := (o.2.setZ (compareZ o.2.a o.1)).complete figure

/-- `CMP address` (42_program_control.md R107). -/
def execCmpAddress (n : Byte) (s : State) : Result := compareWith (operandDirect n s) 9

/-- `CMP A`: `Z <- 1` (42_program_control.md R108). -/
def execCmpA (s : State) : Result := (s.setZ true).complete 4

/-- `CMP R` (42_program_control.md R109). -/
def execCmpR (s : State) : Result := compareWith (operandR s) 4

/-- `CMP M` (42_program_control.md R110). -/
def execCmpM (s : State) : Result := compareWith (operandIndirect s) 7

/-- `CMP I data` (42_program_control.md R111). -/
def execCmpImm (n : Byte) (s : State) : Result := compareWith (operandImmediate n s) 6

end Sys2Proof.Machine
end

