-- ==== Sys2Proof/Machine/Dispatch.lean ====
section
/-! DEFINITION. One arm per instruction of 30_encoding.md R68. -/

namespace Sys2Proof.Machine

open Sys2Proof

/-- What an instruction does to the state that FETCH leaves (40_fetch.md R80: "run the Pseudocode of its rule"). -/
def exec (i : Instr) (s : State) : Host.Outcome State Fault Refusal :=
  match i with
  | .fetch => Sys2Proof.Machine.execFetch s
  | .inAddress n => Sys2Proof.Machine.execInAddress n s
  | .inP => Sys2Proof.Machine.execInP s
  | .outAddress n => Sys2Proof.Machine.execOutAddress n s
  | .outP => Sys2Proof.Machine.execOutP s
  | .jmpAddress n => Sys2Proof.Machine.execJmpAddress n s
  | .jmpR => Sys2Proof.Machine.execJmpR s
  | .jnzAddress n => Sys2Proof.Machine.execJnzAddress n s
  | .jnzR => Sys2Proof.Machine.execJnzR s
  | .jzAddress n => Sys2Proof.Machine.execJzAddress n s
  | .jzR => Sys2Proof.Machine.execJzR s
  | .cmpAddress n => Sys2Proof.Machine.execCmpAddress n s
  | .cmpA => Sys2Proof.Machine.execCmpA s
  | .cmpR => Sys2Proof.Machine.execCmpR s
  | .cmpM => Sys2Proof.Machine.execCmpM s
  | .cmpImm n => Sys2Proof.Machine.execCmpImm n s
  | .ldaAddress n => Sys2Proof.Machine.execLdaAddress n s
  | .ldaA => Sys2Proof.Machine.execLdaA s
  | .ldaR => Sys2Proof.Machine.execLdaR s
  | .ldaM => Sys2Proof.Machine.execLdaM s
  | .ldaImm n => Sys2Proof.Machine.execLdaImm n s
  | .ldrAddress n => Sys2Proof.Machine.execLdrAddress n s
  | .ldrA => Sys2Proof.Machine.execLdrA s
  | .ldrR => Sys2Proof.Machine.execLdrR s
  | .ldrM => Sys2Proof.Machine.execLdrM s
  | .ldrImm n => Sys2Proof.Machine.execLdrImm n s
  | .staAddress n => Sys2Proof.Machine.execStaAddress n s
  | .staM => Sys2Proof.Machine.execStaM s
  | .strAddress n => Sys2Proof.Machine.execStrAddress n s
  | .strM => Sys2Proof.Machine.execStrM s
  | .addAddress n => Sys2Proof.Machine.execAddAddress n s
  | .addA => Sys2Proof.Machine.execAddA s
  | .addR => Sys2Proof.Machine.execAddR s
  | .addM => Sys2Proof.Machine.execAddM s
  | .addImm n => Sys2Proof.Machine.execAddImm n s
  | .subAddress n => Sys2Proof.Machine.execSubAddress n s
  | .subA => Sys2Proof.Machine.execSubA s
  | .subR => Sys2Proof.Machine.execSubR s
  | .subM => Sys2Proof.Machine.execSubM s
  | .subImm n => Sys2Proof.Machine.execSubImm n s
  | .decAddress n => Sys2Proof.Machine.execDecAddress n s
  | .decA => Sys2Proof.Machine.execDecA s
  | .decR => Sys2Proof.Machine.execDecR s
  | .decM => Sys2Proof.Machine.execDecM s
  | .decImm n => Sys2Proof.Machine.execDecImm n s
  | .orAddress n => Sys2Proof.Machine.execOrAddress n s
  | .orA => Sys2Proof.Machine.execOrA s
  | .orR => Sys2Proof.Machine.execOrR s
  | .orM => Sys2Proof.Machine.execOrM s
  | .orImm n => Sys2Proof.Machine.execOrImm n s
  | .invAddress n => Sys2Proof.Machine.execInvAddress n s
  | .invA => Sys2Proof.Machine.execInvA s
  | .invR => Sys2Proof.Machine.execInvR s
  | .invM => Sys2Proof.Machine.execInvM s
  | .invImm n => Sys2Proof.Machine.execInvImm n s
  | .shlAddress n => Sys2Proof.Machine.execShlAddress n s
  | .shlA => Sys2Proof.Machine.execShlA s
  | .shlR => Sys2Proof.Machine.execShlR s
  | .shlM => Sys2Proof.Machine.execShlM s
  | .shlImm n => Sys2Proof.Machine.execShlImm n s

end Sys2Proof.Machine
end

