-- ==== Sys2Proof/Machine/Step.lean ====
section
/-! DEFINITION. The step of the machine (40_fetch.md R80), and an instruction placed where it fetches. -/

namespace Sys2Proof.Machine

open Sys2Proof

/-- One instruction, start to end: FETCH, then the meaning of what was fetched, or the fault IllegalOpcode
(40_fetch.md R80, 60_exceptions.md R211). -/
def step (s : State) : Host.Outcome State Fault Refusal :=
  match decode s.fetchBytes with
  | .ok (i, _) => exec i s.fetchPhase
  | .error _ => raiseIllegalOpcode (s.cell s.ip) s.fetchPhase

/-- The state with the bytes of a table word placed at IP and at the next address (log entry 15). -/
def State.withFetchWord (s : State) (nbits w : Nat) : State :=
  match wordBytes nbits w with
  | b :: n :: _ => (s.place s.ip b).place (s.ip + 1#8) n
  | _ => s

end Sys2Proof.Machine
end

