-- ==== Sys2Proof/Machine/Clocks.lean ====
section
/-! DEFINITION. The clock-cycle table (70_reset_and_hazards.md R241), written from the table and not from the meanings.
The meanings name their own figures; that the two agree is a statement. -/

namespace Sys2Proof.Machine

open Sys2Proof

/-- A row of R241 for an operation that takes all five modes. -/
def fiveModes (direct a r indirect immediate : Nat) : Mode → Nat
  | .direct => direct
  | .regA => a
  | .regR => r
  | .indirect => indirect
  | .immediate => immediate

/-- "Clock Cycles" by operation, mode and Z (R241; `SUB I data` is decision D12). A mode the operation does not take
has no figure and gets 0. -/
def clockTable (z : Bool) : Operation → Mode → Nat
  | .inp, .direct => 9
  | .inp, .indirect => 7
  | .out, .direct => 9
  | .out, .indirect => 7
  | .jmp, .direct => 6
  | .jmp, .regR => 4
  | .jnz, .direct => if z then 4 else 6
  | .jnz, .regR => 4
  | .jz, .direct => if z then 6 else 4
  | .jz, .regR => 4
  | .sta, .direct => 9
  | .sta, .indirect => 7
  | .str, .direct => 9
  | .str, .indirect => 7
  | .cmp, m | .lda, m | .ldr, m | .add, m | .sub, m | .or, m => fiveModes 9 4 4 7 6 m
  | .dec, m | .shl, m => fiveModes 11 4 7 9 8 m
  | .inv, m => fiveModes 9 4 5 7 6 m
  | .inp, _ | .out, _ | .jmp, _ | .jnz, _ | .jz, _ | .sta, _ | .str, _ => 0

/-- The clock cycles of an instruction that starts with the zero flag at `z`. -/
def clockFigure (z : Bool) (i : Instr) : Nat :=
  match i.form with
  | .fetch => 3
  | .op o m _ => clockTable z o m

end Sys2Proof.Machine
end

