-- ==== Sys2Proof/Machine/Micro.lean ====
section
/-! DEFINITION. The micro-instructions: the same machine one clock at a time (40_fetch.md R81, R84; the "Clocks" items
of files 41 to 45; 70_reset_and_hazards.md R240, R242). Each instruction is a list of lines, one line per clock, and
the latches AR, DR, OR and the ALU connections, which are not architectural state (10_state.md R30), stand beside the
state. `exec` is the model; that this machine does the same is a statement. Lines the spec does not print are DEDUCED
from those it does (log entry 14). -/

namespace Sys2Proof.Machine

open Sys2Proof

/-- The operations of the ALU. -/
inductive AluOp where
  | add | sub | dec | or | inv | shl
deriving DecidableEq, Repr

/-- One transfer or strobe of a line, as the source writes them (00_scope.md R9, R11). -/
inductive Transfer where
  | arFromIp | arFromOr
  | memAddressFromAr | portAddressFromAr
  | memDataFromDr | portDataFromDr
  | drFromMemData | drFromPortData | drFromA | drFromR
  | orFromDr | orFromR
  | irFromDr
  | ipFromIpPlus1 | ipFromDr | ipFromR
  | aFromDr | aFromR | rFromDr | rFromA
  | aluAFromA | aluBFromA | aluBFromR | aluBFromDr
  | aluF (f : AluOp)
  | aFromAluF
  | zFromZeroCondition | zFromOne
  | assertMemr | assertMemw | assertIor | assertIow
  | noOperation
deriving DecidableEq, Repr

/-- One clock cycle: the transfers of one line, in the order written (00_scope.md R9). -/
abbrev Line := List Transfer

/-- The state with the latches and connections that the micro-instructions name (10_state.md R30). -/
structure MicroState where
  cpu : State
  ar : Byte
  dr : Byte
  or : Byte
  aluA : Byte
  aluB : Byte
  aluF : Byte
  memAddress : Byte
  memData : Byte
  portAddress : Byte
  portData : Byte
deriving DecidableEq, Repr

/-- What the ALU puts on ALU(F). -/
def aluOut (a b : Byte) : AluOp → Byte
  | .add => add8 a b
  | .sub => sub8 a b
  | .dec => dec8 a
  | .or => or8 a b
  | .inv => inv8 b
  | .shl => shl8 a

/-- One transfer. A read is one event, made where its data is latched; a write is one event, made where its strobe is
asserted (20_memory.md R44, R45). The read strobes hold the address; the latching line is the access. -/
def Transfer.run (x : Transfer) (m : MicroState) : MicroState :=
  match x with
  | .arFromIp => { m with ar := m.cpu.ip }
  | .arFromOr => { m with ar := m.or }
  | .memAddressFromAr => { m with memAddress := m.ar }
  | .portAddressFromAr => { m with portAddress := m.ar }
  | .memDataFromDr => { m with memData := m.dr }
  | .portDataFromDr => { m with portData := m.dr }
  | .drFromMemData => { m with dr := (m.cpu.memRead m.memAddress).1, cpu := (m.cpu.memRead m.memAddress).2 }
  | .drFromPortData => { m with dr := (m.cpu.portRead m.portAddress).1, cpu := (m.cpu.portRead m.portAddress).2 }
  | .drFromA => { m with dr := m.cpu.a }
  | .drFromR => { m with dr := m.cpu.r }
  | .orFromDr => { m with or := m.dr }
  | .orFromR => { m with or := m.cpu.r }
  | .irFromDr => { m with cpu := m.cpu.setIr m.dr }
  | .ipFromIpPlus1 => { m with cpu := m.cpu.incIp }
  | .ipFromDr => { m with cpu := m.cpu.setIp m.dr }
  | .ipFromR => { m with cpu := m.cpu.setIp m.cpu.r }
  | .aFromDr => { m with cpu := m.cpu.setA m.dr }
  | .aFromR => { m with cpu := m.cpu.setA m.cpu.r }
  | .rFromDr => { m with cpu := m.cpu.setR m.dr }
  | .rFromA => { m with cpu := m.cpu.setR m.cpu.a }
  | .aluAFromA => { m with aluA := m.cpu.a }
  | .aluBFromA => { m with aluB := m.cpu.a }
  | .aluBFromR => { m with aluB := m.cpu.r }
  | .aluBFromDr => { m with aluB := m.dr }
  | .aluF f => { m with aluF := aluOut m.aluA m.aluB f }
  | .aFromAluF => { m with cpu := m.cpu.setA m.aluF }
  | .zFromZeroCondition => { m with cpu := m.cpu.setZ (zeroCondition m.aluF) }
  | .zFromOne => { m with cpu := m.cpu.setZ true }
  | .assertMemw => { m with cpu := m.cpu.memWrite m.memAddress m.memData }
  | .assertIow => { m with cpu := m.cpu.portWrite m.portAddress m.portData }
  | .assertMemr | .assertIor | .noOperation => m

/-- The transfers of a line, one after the other. -/
def runTransfers : List Transfer → MicroState → MicroState
  | [], m => m
  | x :: xs, m => runTransfers xs (x.run m)

/-- One clock cycle passes. -/
def MicroState.tick (m : MicroState) : MicroState := { m with cpu := m.cpu.spend 1 }

/-- One clock: the transfers of the line, and one clock cycle. -/
def runLine (l : Line) (m : MicroState) : MicroState := (runTransfers l m).tick

/-- The lines one after the other. -/
def runLines : List Line → MicroState → MicroState
  | [], m => m
  | l :: ls, m => runLines ls (runLine l m)

/-! ### The lines every entry shares (40_fetch.md R81, R84) -/

/-- "Op Code Fetch (3 Clock Cycles)" (40_fetch.md R81). -/
def linesFetch : List Line :=
  [[.arFromIp, .memAddressFromAr, .assertMemr],
   [.drFromMemData, .ipFromIpPlus1, .memAddressFromAr, .assertMemr],
   [.irFromDr]]

/-- The read of byte 2 (40_fetch.md R84). -/
def linesByte2 : List Line :=
  [[.arFromIp, .memAddressFromAr, .assertMemr],
   [.drFromMemData, .ipFromIpPlus1, .memAddressFromAr, .assertMemr]]

/-- The read of byte 2 by a direct jump: IP is not incremented (42_program_control.md R101). -/
def linesTarget : List Line :=
  [[.arFromIp, .memAddressFromAr, .assertMemr],
   [.drFromMemData, .memAddressFromAr, .assertMemr],
   [.ipFromDr]]

/-- The read of the operand cell (40_fetch.md R84). -/
def linesOperandRead : List Line :=
  [[.arFromOr, .memAddressFromAr, .assertMemr],
   [.drFromMemData, .memAddressFromAr, .assertMemr]]

/-- The read of a port (41_input_output.md R91). -/
def linesPortRead : List Line :=
  [[.arFromOr, .portAddressFromAr, .assertIor],
   [.drFromPortData, .portAddressFromAr, .assertIor]]

/-- The write of a memory cell, from A or from R (40_fetch.md R84). -/
def linesOperandWrite (load : Transfer) : List Line :=
  [[.arFromOr, .memAddressFromAr, load, .memDataFromDr],
   [.memAddressFromAr, .memDataFromDr, .assertMemw],
   [.memAddressFromAr, .memDataFromDr]]

/-- The write of a port (41_input_output.md R93, conflict C8). -/
def linesPortWrite : List Line :=
  [[.arFromOr, .portAddressFromAr, .drFromA, .portDataFromDr],
   [.portAddressFromAr, .portDataFromDr, .assertIow],
   [.portAddressFromAr, .portDataFromDr]]

/-- How the operand comes into DR, or into A or R, which hold it already (40_fetch.md R84). -/
def linesOperand : Mode → List Line
  | .direct => linesByte2 ++ [[.orFromDr]] ++ linesOperandRead
  | .indirect => [[.orFromR]] ++ linesOperandRead
  | .immediate => linesByte2
  | .regA | .regR => []

/-- How the address of a store or of a port comes into OR (40_fetch.md R84). -/
def linesAddress : Mode → List Line
  | .direct => linesByte2 ++ [[.orFromDr]]
  | .indirect => [[.orFromR]]
  | .regA | .regR | .immediate => []

/-- The transfer that brings the operand to ALU(B) (10_state.md R30). -/
def aluBFrom : Mode → Transfer
  | .regA => .aluBFromA
  | .regR => .aluBFromR
  | .direct | .indirect | .immediate => .aluBFromDr

/-- The final line of ADD, SUB and OR: the ALU's result to A (44_arithmetic.md R151, 45_logical.md R181). -/
def linesAlu (f : AluOp) (m : Mode) : List Line := [[.aluAFromA, aluBFrom m, .aluF f, .aFromAluF]]

/-- The final lines of DEC and SHL: through A, in one clock for the register A, in three otherwise, and with a fourth
line that copies A to R for the register R (44_arithmetic.md R161, R163; 45_logical.md R191, R193; conflict C7). -/
def linesThroughA (f : AluOp) : Mode → List Line
  | .regA => [[.aluAFromA, .aluF f, .aFromAluF]]
  | .regR => [[.aFromR], [.aluAFromA, .aluF f], [.aFromAluF], [.rFromA]]
  | .direct | .indirect | .immediate => [[.aFromDr], [.aluAFromA, .aluF f], [.aFromAluF]]

/-- The final lines of INV: straight from the operand to ALU(B) (45_logical.md R186, R188). -/
def linesInv : Mode → List Line
  | .regR => [[.aluBFromR, .aluF .inv, .aFromAluF], [.rFromA]]
  | m => [[aluBFrom m, .aluF .inv, .aFromAluF]]

/-- The lines after "Op Code Fetch", by operation, mode and Z. -/
def linesOf (z : Bool) : Operation → Mode → List Line
  | .inp, m => linesAddress m ++ linesPortRead ++ [[.aFromDr]]
  | .out, m => linesAddress m ++ linesPortWrite
  | .jmp, .direct => linesTarget
  | .jmp, _ => [[.ipFromR]]
  | .jnz, .direct => if z then [[.ipFromIpPlus1]] else linesTarget
  | .jnz, _ => if z then [[.noOperation]] else [[.ipFromR]]
  | .jz, .direct => if z then linesTarget else [[.ipFromIpPlus1]]
  | .jz, _ => if z then [[.ipFromR]] else [[.noOperation]]
  | .cmp, .regA => [[.zFromOne]]
  | .cmp, m => linesOperand m ++ [[.aluAFromA, aluBFrom m, .aluF .sub, .zFromZeroCondition]]
  | .lda, .regA => [[.noOperation]]
  | .lda, .regR => [[.aFromR]]
  | .lda, m => linesOperand m ++ [[.aFromDr]]
  | .ldr, .regA => [[.rFromA]]
  | .ldr, .regR => [[.noOperation]]
  | .ldr, m => linesOperand m ++ [[.rFromDr]]
  | .sta, m => linesAddress m ++ linesOperandWrite .drFromA
  | .str, m => linesAddress m ++ linesOperandWrite .drFromR
  | .add, m => linesOperand m ++ linesAlu .add m
  | .sub, m => linesOperand m ++ linesAlu .sub m
  | .or, m => linesOperand m ++ linesAlu .or m
  | .dec, m => linesOperand m ++ linesThroughA .dec m
  | .shl, m => linesOperand m ++ linesThroughA .shl m
  | .inv, m => linesOperand m ++ linesInv m

/-- The lines of an instruction after "Op Code Fetch"; FETCH itself has none (40_fetch.md R82). -/
def executeLines (z : Bool) : Form → List Line
  | .fetch => []
  | .op o m _ => linesOf z o m

/-- The whole micro-program of an instruction that starts with the zero flag at `z`. -/
def microProgram (z : Bool) (i : Instr) : List Line := linesFetch ++ executeLines z i.form

end Sys2Proof.Machine
end

