-- ==== Sys2Proof/Safety.lean ====
section
/-! DEFINITION. The terms the statements use: what an instruction leaves unchanged, what a step is seen to do, which
instructions touch which register, and the end of a run. -/

namespace Sys2Proof.Machine

open Sys2Proof

/-- The parts of the state a data instruction can change. IP, the trace and the clock are stated apart. -/
inductive Part where
  | a | r | z
  /-- One byte of memory. -/
  | cell (p : Nat)
  /-- The answers PORT_ENV has fixed. -/
  | ports
deriving DecidableEq, Repr

/-- Everything outside the named parts is as before: A, R, Z, the port script, the address map, and every byte of
memory. -/
def UnchangedBut (parts : List Part) (s t : State) : Prop :=
  (Part.a ∉ parts → t.a = s.a) ∧ (Part.r ∉ parts → t.r = s.r) ∧ (Part.z ∉ parts → t.z = s.z) ∧
  (∀ p, Part.cell p ∉ parts → t.mem.read p = s.mem.read p) ∧
  (Part.ports ∉ parts → t.portScript = s.portScript) ∧ t.memMap = s.memMap

/-- The bytes at IP begin with `bs`: byte 1, and byte 2 where two are given. -/
abbrev Fetches (s : State) (bs : List Byte) : Prop := s.fetchBytes.take bs.length = bs

/-- A memory read of `p` in the course of the step from `s` gives `v`: what the cell holds, or any byte where nothing
is fitted (20_memory.md R46). -/
def ReadsCell (s : State) (p : Addr) (v : Byte) : Prop := s.kindAt p ≠ .absent → v = s.mem.read p.toNat

/-- A port read in the course of the step from `s` gives `v`: the answer PORT_ENV has fixed, or any byte
(41_input_output.md R90). -/
def ReadsPort (s : State) (v : Byte) : Prop := ∀ x rest, s.portScript = x :: rest → v = x

/-- The step from `s` runs `i` to the state `t`: the step answers it, and so does the meaning of `i` on the state FETCH
leaves. IR holds the opcode byte `b` (10_state.md R27), the accesses are exactly `accesses`, in that order
(20_memory.md R50), and it takes `clocks` clock cycles. -/
def StepRuns (s : State) (i : Instr) (b : Byte) (accesses : List Event) (clocks : Nat) (t : State) : Prop :=
  step s = .next t ∧ exec i s.fetchPhase = .next t ∧ t.ir = b ∧ t.trace = accesses.reverse ++ s.trace ∧
  t.clock = s.clock + clocks

/-- The memory of a state is in canonical form. -/
abbrev State.Inv (s : State) : Prop := s.mem.wf = true

/-- The state after FETCH has read the byte `b` at IP, and nothing else has happened (40_fetch.md R81). -/
def afterFetchOf (s : State) (b : Byte) : State :=
  { s with ir := b, ip := s.ip + 1#8, trace := .memRead s.ip b :: s.trace, clock := s.clock + 3 }

/-- A store of `v` at `p` and nothing else: where ram is fitted the byte at `p` is `v`, elsewhere memory is as before
(20_memory.md R46). -/
def StoresAt (p : Addr) (v : Byte) (s t : State) : Prop :=
  UnchangedBut [.cell p.toNat] s t ∧ (s.kindAt p = .ram → s.Inv → t.mem.read p.toNat = v) ∧
  (s.kindAt p ≠ .ram → t.mem = s.mem)

/-- `w` is `v` shifted left by one: bits 6..0 move to bits 7..1, bit 0 is 0 (45_logical.md R180). -/
def ShiftedLeft (v w : Byte) : Prop := (∀ k, k < 7 → w.getLsbD (k + 1) = v.getLsbD k) ∧ w.getLsbD 0 = false

/-- The end of a run: one step leaves A, R, IP, Z and MEM as they are (70_reset_and_hazards.md R234). The trace and the
clock, which are the model's own, go on. -/
def IsHalted (s : State) : Prop :=
  ∃ t, step s = .next t ∧ t.a = s.a ∧ t.r = s.r ∧ t.ip = s.ip ∧ t.z = s.z ∧ t.mem = s.mem

/-- The instruction at IP is a jump to itself (70_reset_and_hazards.md R234). -/
def SelfJump (s : State) : Prop :=
  Fetches s [0x20#8, s.ip] ∨ (Fetches s [0x23#8] ∧ s.r = s.ip) ∨
  (Fetches s [0x28#8, s.ip] ∧ s.z = false) ∨ (Fetches s [0x30#8, s.ip] ∧ s.z = true) ∨
  (Fetches s [0x2B#8] ∧ s.r = s.ip ∧ s.z = false) ∨ (Fetches s [0x33#8] ∧ s.r = s.ip ∧ s.z = true)

/-- A run of a number of steps, none of which stops. -/
def Runs : Nat → State → State → Prop
  | 0, s, t => s = t
  | k + 1, s, t => ∃ u, step s = .next u ∧ Runs k u t

/-! ### What a read returns (20_memory.md R49) -/

/-- The value of the most recent write to `x` in a trace, newest access first. -/
def lastWrite : List Event → Addr → Option Byte
  | [], _ => none
  | .memWrite p v :: es, x => if p = x then some v else lastWrite es x
  | .memRead _ _ :: es, x | .portRead _ _ :: es, x | .portWrite _ _ :: es, x => lastWrite es x

/-- What a cell that held `init x` holds after the accesses of a trace. -/
def cellAfter (init : Addr → Byte) (es : List Event) (x : Addr) : Byte := (lastWrite es x).getD (init x)

/-- Every memory read of a trace, at an address of which `fitted` holds, gave what the accesses before it left. -/
def ReadsCoherent (fitted : Addr → Prop) (init : Addr → Byte) : List Event → Prop
  | [] => True
  | .memRead p v :: es => (fitted p → v = cellAfter init es p) ∧ ReadsCoherent fitted init es
  | .memWrite _ _ :: es | .portRead _ _ :: es | .portWrite _ _ :: es => ReadsCoherent fitted init es

/-- The memory and the trace of `s` agree, for a memory that began as `init`: each cell of ram holds the most recent
write to it, and each read of ram returned the most recent write before it. -/
def Coherent (init : Addr → Byte) (s : State) : Prop :=
  (∀ x, s.kindAt x = .ram → s.mem.read x.toNat = cellAfter init s.trace x) ∧
  ReadsCoherent (fun x => s.kindAt x = .ram) init s.trace

/-! ### Which instruction reads and writes what (10_state.md R22, R31, R32) -/

/-- The instructions that write A (10_state.md R22). -/
def writesA (i : Instr) : Bool :=
  match i.operation with
  | some .add | some .sub | some .dec | some .or | some .inv | some .shl | some .lda | some .inp => true
  | _ => false

/-- The instructions that write R (10_state.md R22). -/
def writesR (i : Instr) : Bool :=
  match i.form with
  | .op .ldr _ _ | .op .dec .regR _ | .op .inv .regR _ | .op .shl .regR _ => true
  | _ => false

/-- The instructions that write Z (10_state.md R22). -/
def writesZ (i : Instr) : Bool := i.operation == some .cmp

/-- The instructions that write memory (10_state.md R31). -/
def writesMem (i : Instr) : Bool := i.operation == some .sta || i.operation == some .str

/-- The instructions that read A (10_state.md R22). -/
def readsA (i : Instr) : Bool :=
  match i.form with
  | .op .add _ _ | .op .sub _ _ | .op .or _ _ | .op .cmp _ _ | .op .sta _ _ | .op .out _ _ => true
  | .op _ .regA _ => true
  | _ => false

/-- The instructions that read R: as the operand, as an address, as the data of STR, or as a target
(10_state.md R22). -/
def readsR (i : Instr) : Bool :=
  match i.form with
  | .op _ .regR _ | .op _ .indirect _ | .op .str _ _ => true
  | _ => false

/-- The instructions that read Z (10_state.md R22). -/
def readsZ (i : Instr) : Bool := i.operation == some .jnz || i.operation == some .jz

/-- The instructions that reach the port space (10_state.md R32). -/
def reachesPorts (i : Instr) : Bool := i.operation == some .inp || i.operation == some .out

/-- The jumps. -/
def isJump (i : Instr) : Bool := i.operation == some .jmp || i.operation == some .jnz || i.operation == some .jz

end Sys2Proof.Machine
end

