-- ==== Sys2Proof/Certificates/Slice0/Obligations.lean ====
section
/-! DEFINITION. The statements about the P8, from the numbered rules of spec/.

The statements of what an instruction does are about one step from a state whose bytes at IP are the instruction's
encoding: they give the accesses, the clock cycles, the new registers, and what is left unchanged. Where such a
statement adds 1 or 2 to IP, the sum is of 8 bits; that it wraps from FFh to 00h is the spec's decision D2
(92_eei_decisions.md; log entry 8). -/

open Sys2Proof Sys2Proof.Machine

/-! ### Encoding -/

/-- 30_encoding.md sections 1 and 3: the decoder, written from the listing R68, reads back every instruction that the
encoder, written from the field tables R62 and R63, writes, and leaves the bytes after it. -/
def Obligations.DecodeOfEncode : Prop :=
  ∀ (i : Instr) (rest : List Byte), i.WellFormed → decode (encode i ++ rest) = .ok (i, rest)

/-- 30_encoding.md section 3: bytes that decode are exactly the encoding of the instruction they decode to, followed by
the rest; so no byte of an instruction is ignored. -/
def Obligations.EncodeOfDecode : Prop :=
  ∀ (bs : List Byte) (i : Instr) (rest : List Byte), decode bs = .ok (i, rest) →
    i.WellFormed ∧ bs = encode i ++ rest

/-- 30_encoding.md R70 (which the spec marks as its own derivation): a first byte is undefined exactly when it falls
into one of the three classes written there. -/
def Obligations.UndefinedBytesAreThreeClasses : Prop :=
  ∀ (b : Byte) (rest : List Byte), decode (b :: rest) = .error (.undefinedByte b) ↔
    (b.extractLsb' 0 3 ∈ [0b001#3, 0b101#3, 0b111#3]) ∨
    (b.extractLsb' 3 5 ∈ [0b00000#5, 0b00011#5, 0b01111#5, 0b10011#5, 0b10100#5, 0b10101#5, 0b10110#5, 0b10111#5,
        0b11000#5, 0b11001#5, 0b11010#5, 0b11011#5, 0b11100#5, 0b11101#5, 0b11110#5, 0b11111#5] ∧ b ≠ 0x00#8) ∨
    (b ∈ [0x0A#8, 0x0B#8, 0x0E#8, 0x12#8, 0x13#8, 0x16#8, 0x22#8, 0x24#8, 0x26#8, 0x2A#8, 0x2C#8, 0x2E#8, 0x32#8,
        0x34#8, 0x36#8, 0x52#8, 0x53#8, 0x56#8, 0x5A#8, 0x5B#8, 0x5E#8])

/-- 30_encoding.md R64 (which the spec marks as its own derivation): the length is a function of the mode field alone,
two bytes for modes 000 and 110 and one byte for the others, but for 00h, which is one byte. -/
def Obligations.LengthFollowsModeField : Prop :=
  ∀ (b n : Byte) (rest : List Byte) (i : Instr) (after : List Byte), decode (b :: n :: rest) = .ok (i, after) →
    after = if b ≠ 0x00#8 ∧ (b.extractLsb' 0 3 = 0b000#3 ∨ b.extractLsb' 0 3 = 0b110#3) then rest else n :: rest

/-- 30_encoding.md section 3: a word of each family, written out from the encoding, decodes to its instruction. -/
def Obligations.ListedWordsDecode : Prop :=
  decode [0b00000000#8] = .ok (.fetch, []) ∧
  decode [0b00001000#8, 0x10#8] = .ok (.inAddress 0x10#8, []) ∧
  decode [0b00101011#8] = .ok (.jnzR, []) ∧
  decode [0b01011100#8] = .ok (.strM, []) ∧
  decode [0b01101110#8, 0x04#8] = .ok (.subImm 0x04#8, []) ∧
  decode [0b10001010#8] = .ok (.invA, [])

/-! ### The step -/

/-- 40_fetch.md R81, the FETCH phase: IR takes the byte a memory read at IP gives, with the value IP had before the
increment; IP is incremented; one access, three clock cycles, and nothing else changes. Its three micro-instructions do
the same: that the transfers of a line act in the order written, and that a read is one access, made where DR latches
it, is DEDUCED (log entry 14). -/
def Obligations.FetchPhaseEffect : Prop :=
  (∀ s : State, ∃ b, ReadsCell s s.ip b ∧ s.fetchPhase = afterFetchOf s b) ∧
  ∀ m : MicroState, (runLines linesFetch m).cpu = m.cpu.fetchPhase

/-- 40_fetch.md section 1 (R80, which the spec marks as its own derivation): when the bytes at IP decode to an
instruction, the step is the meaning of that instruction on the state the FETCH phase leaves. -/
def Obligations.StepRunsDecodedInstruction : Prop :=
  ∀ (s : State) (i : Instr) (rest : List Byte), i.WellFormed → decode s.fetchBytes = .ok (i, rest) →
    step s = exec i s.fetchPhase ∧ s.fetchPhase = afterFetchOf s (s.cell s.ip)

/-- 60_exceptions.md section 2 (R211, decision D3 of the spec; log entry 11): a first byte with which no instruction
begins ends the step in the fault IllegalOpcode, which records the byte, its address, and the state in which FETCH has
happened and nothing else. That the fault carries the state is the model's choice. -/
def Obligations.UnlistedByteFaults : Prop :=
  ∀ s : State, (∀ i : Instr, (encode i).head? ≠ some (s.cell s.ip)) →
    step s = .fault (.illegalOpcode (s.cell s.ip) s.ip (afterFetchOf s (s.cell s.ip)))

/-- 60_exceptions.md sections 2 and 4 (R211, R213): the only stop a step can meet is IllegalOpcode, and it never
refuses. -/
def Obligations.OnlyStopIsIllegalOpcode : Prop :=
  ∀ s : State, (∃ t, step s = .next t) ∨
    (step s = .fault (.illegalOpcode (s.cell s.ip) s.ip (afterFetchOf s (s.cell s.ip))) ∧
      ∀ i : Instr, (encode i).head? ≠ some (s.cell s.ip))

/-- 60_exceptions.md section 2 (R210, decision D8 of the spec): every listed instruction always completes, from any
state. It leaves IR and the address map alone, and a non-jump moves IP past its byte 2, if it has one
(10_state.md section 2). -/
def Obligations.EveryInstructionCompletes : Prop :=
  ∀ (i : Instr) (s : State), ∃ t, exec i s = .next t ∧ t.ir = s.ir ∧ t.memMap = s.memMap ∧
    (isJump i = false → t.ip = s.ip + BitVec.ofNat 8 (i.length - 1))

/-- 10_state.md section 4 (R27): after a step IR holds the opcode byte the step fetched. -/
def Obligations.IrHoldsTheOpcode : Prop :=
  ∀ s t : State, step s = .next t → t.ir = s.cell s.ip

/-! ### FETCH and Input/Output -/

/-- 40_fetch.md section 2 (R82, decision D4 of the spec; log entry 10): the byte 00h is a one-byte no-operation. -/
def Obligations.FetchIsNoOperation : Prop :=
  ∀ s : State, Fetches s [0x00#8] →
    ∃ t, StepRuns s .fetch 0x00#8 [.memRead s.ip 0x00#8] 3 t ∧ t.ip = s.ip + 1#8 ∧ UnchangedBut [] s t

/-- 41_input_output.md section 2: IN loads A with the byte the port presents. The port is byte 2, or R. That a read
takes the next answer PORT_ENV has fixed and uses it up is the model's form of the environment (decision D7 of the spec;
log entry 5). -/
def Obligations.InLoadsPortByte : Prop :=
  (∀ (s : State) (n : Byte), Fetches s [0x08#8, n] →
    ∃ v t, ReadsPort s v ∧
      StepRuns s (.inAddress n) 0x08#8 [.memRead s.ip 0x08#8, .memRead (s.ip + 1#8) n, .portRead n v] 9 t ∧
      t.a = v ∧ t.ip = s.ip + 2#8 ∧ t.portScript = s.portScript.tail ∧ UnchangedBut [.a, .ports] s t) ∧
  (∀ s : State, Fetches s [0x0C#8] →
    ∃ v t, ReadsPort s v ∧ StepRuns s .inP 0x0C#8 [.memRead s.ip 0x0C#8, .portRead s.r v] 7 t ∧
      t.a = v ∧ t.ip = s.ip + 1#8 ∧ t.portScript = s.portScript.tail ∧ UnchangedBut [.a, .ports] s t)

/-- 41_input_output.md R93, R94: OUT writes A to the port, and changes no register and no memory. -/
def Obligations.OutWritesPort : Prop :=
  (∀ (s : State) (n : Byte), Fetches s [0x10#8, n] →
    ∃ t, StepRuns s (.outAddress n) 0x10#8 [.memRead s.ip 0x10#8, .memRead (s.ip + 1#8) n, .portWrite n s.a] 9 t ∧
      t.ip = s.ip + 2#8 ∧ UnchangedBut [] s t) ∧
  (∀ s : State, Fetches s [0x14#8] →
    ∃ t, StepRuns s .outP 0x14#8 [.memRead s.ip 0x14#8, .portWrite s.r s.a] 7 t ∧
      t.ip = s.ip + 1#8 ∧ UnchangedBut [] s t)

/-! ### Program Control -/

/-- 42_program_control.md R101, R102: JMP loads IP with byte 2 itself, or with R. -/
def Obligations.JmpLoadsIp : Prop :=
  (∀ (s : State) (n : Byte), Fetches s [0x20#8, n] →
    ∃ t, StepRuns s (.jmpAddress n) 0x20#8 [.memRead s.ip 0x20#8, .memRead (s.ip + 1#8) n] 6 t ∧
      t.ip = n ∧ UnchangedBut [] s t) ∧
  (∀ s : State, Fetches s [0x23#8] →
    ∃ t, StepRuns s .jmpR 0x23#8 [.memRead s.ip 0x23#8] 4 t ∧ t.ip = s.r ∧ UnchangedBut [] s t)

/-- 42_program_control.md R103, R104: JNZ jumps when Z = 0; not taken, the direct form skips byte 2 without reading
it. -/
def Obligations.JnzJumpsWhenZClear : Prop :=
  (∀ (s : State) (n : Byte), Fetches s [0x28#8, n] → s.z = false →
    ∃ t, StepRuns s (.jnzAddress n) 0x28#8 [.memRead s.ip 0x28#8, .memRead (s.ip + 1#8) n] 6 t ∧
      t.ip = n ∧ UnchangedBut [] s t) ∧
  (∀ (s : State) (n : Byte), Fetches s [0x28#8, n] → s.z = true →
    ∃ t, StepRuns s (.jnzAddress n) 0x28#8 [.memRead s.ip 0x28#8] 4 t ∧ t.ip = s.ip + 2#8 ∧ UnchangedBut [] s t) ∧
  (∀ s : State, Fetches s [0x2B#8] →
    ∃ t, StepRuns s .jnzR 0x2B#8 [.memRead s.ip 0x2B#8] 4 t ∧
      t.ip = (if s.z = false then s.r else s.ip + 1#8) ∧ UnchangedBut [] s t)

/-- 42_program_control.md R105, R106: JZ jumps when Z = 1; not taken, the direct form skips byte 2 without reading
it. -/
def Obligations.JzJumpsWhenZSet : Prop :=
  (∀ (s : State) (n : Byte), Fetches s [0x30#8, n] → s.z = true →
    ∃ t, StepRuns s (.jzAddress n) 0x30#8 [.memRead s.ip 0x30#8, .memRead (s.ip + 1#8) n] 6 t ∧
      t.ip = n ∧ UnchangedBut [] s t) ∧
  (∀ (s : State) (n : Byte), Fetches s [0x30#8, n] → s.z = false →
    ∃ t, StepRuns s (.jzAddress n) 0x30#8 [.memRead s.ip 0x30#8] 4 t ∧ t.ip = s.ip + 2#8 ∧ UnchangedBut [] s t) ∧
  (∀ s : State, Fetches s [0x33#8] →
    ∃ t, StepRuns s .jzR 0x33#8 [.memRead s.ip 0x33#8] 4 t ∧
      t.ip = (if s.z = true then s.r else s.ip + 1#8) ∧ UnchangedBut [] s t)

/-- 42_program_control.md R107 to R111: CMP sets Z when A equals the operand and clears it otherwise, and changes
nothing else; CMP A always sets it. -/
def Obligations.CmpWritesZ : Prop :=
  (∀ (s : State) (n : Byte), Fetches s [0x38#8, n] →
    ∃ v t, ReadsCell s n v ∧
      StepRuns s (.cmpAddress n) 0x38#8 [.memRead s.ip 0x38#8, .memRead (s.ip + 1#8) n, .memRead n v] 9 t ∧
      (t.z = true ↔ s.a = v) ∧ t.ip = s.ip + 2#8 ∧ UnchangedBut [.z] s t) ∧
  (∀ s : State, Fetches s [0x3A#8] →
    ∃ t, StepRuns s .cmpA 0x3A#8 [.memRead s.ip 0x3A#8] 4 t ∧
      t.z = true ∧ t.ip = s.ip + 1#8 ∧ UnchangedBut [.z] s t) ∧
  (∀ s : State, Fetches s [0x3B#8] →
    ∃ t, StepRuns s .cmpR 0x3B#8 [.memRead s.ip 0x3B#8] 4 t ∧
      (t.z = true ↔ s.a = s.r) ∧ t.ip = s.ip + 1#8 ∧ UnchangedBut [.z] s t) ∧
  (∀ s : State, Fetches s [0x3C#8] →
    ∃ v t, ReadsCell s s.r v ∧ StepRuns s .cmpM 0x3C#8 [.memRead s.ip 0x3C#8, .memRead s.r v] 7 t ∧
      (t.z = true ↔ s.a = v) ∧ t.ip = s.ip + 1#8 ∧ UnchangedBut [.z] s t) ∧
  (∀ (s : State) (n : Byte), Fetches s [0x3E#8, n] →
    ∃ t, StepRuns s (.cmpImm n) 0x3E#8 [.memRead s.ip 0x3E#8, .memRead (s.ip + 1#8) n] 6 t ∧
      (t.z = true ↔ s.a = n) ∧ t.ip = s.ip + 2#8 ∧ UnchangedBut [.z] s t)

/-- 42_program_control.md sections 3 and 4: a conditional jump that is taken does exactly what the unconditional jump
does, in both forms. -/
def Obligations.TakenConditionalIsJmp : Prop :=
  ∀ (s : State) (n : Byte),
    (s.z = false → exec (.jnzAddress n) s = exec (.jmpAddress n) s ∧ exec .jnzR s = exec .jmpR s) ∧
    (s.z = true → exec (.jzAddress n) s = exec (.jmpAddress n) s ∧ exec .jzR s = exec .jmpR s)

/-! ### Data Transfer -/

/-- 43_data_transfer.md R121 to R125: LDA loads A with its operand; LDA A changes nothing but IP. -/
def Obligations.LdaLoadsA : Prop :=
  (∀ (s : State) (n : Byte), Fetches s [0x40#8, n] →
    ∃ v t, ReadsCell s n v ∧
      StepRuns s (.ldaAddress n) 0x40#8 [.memRead s.ip 0x40#8, .memRead (s.ip + 1#8) n, .memRead n v] 9 t ∧
      t.a = v ∧ t.ip = s.ip + 2#8 ∧ UnchangedBut [.a] s t) ∧
  (∀ s : State, Fetches s [0x42#8] →
    ∃ t, StepRuns s .ldaA 0x42#8 [.memRead s.ip 0x42#8] 4 t ∧ t.ip = s.ip + 1#8 ∧ UnchangedBut [] s t) ∧
  (∀ s : State, Fetches s [0x43#8] →
    ∃ t, StepRuns s .ldaR 0x43#8 [.memRead s.ip 0x43#8] 4 t ∧
      t.a = s.r ∧ t.ip = s.ip + 1#8 ∧ UnchangedBut [.a] s t) ∧
  (∀ s : State, Fetches s [0x44#8] →
    ∃ v t, ReadsCell s s.r v ∧ StepRuns s .ldaM 0x44#8 [.memRead s.ip 0x44#8, .memRead s.r v] 7 t ∧
      t.a = v ∧ t.ip = s.ip + 1#8 ∧ UnchangedBut [.a] s t) ∧
  (∀ (s : State) (n : Byte), Fetches s [0x46#8, n] →
    ∃ t, StepRuns s (.ldaImm n) 0x46#8 [.memRead s.ip 0x46#8, .memRead (s.ip + 1#8) n] 6 t ∧
      t.a = n ∧ t.ip = s.ip + 2#8 ∧ UnchangedBut [.a] s t)

/-- 43_data_transfer.md R126 to R130: LDR loads R with its operand and leaves A alone; the address of LDR M is the old
R; LDR R changes nothing but IP. -/
def Obligations.LdrLoadsR : Prop :=
  (∀ (s : State) (n : Byte), Fetches s [0x48#8, n] →
    ∃ v t, ReadsCell s n v ∧
      StepRuns s (.ldrAddress n) 0x48#8 [.memRead s.ip 0x48#8, .memRead (s.ip + 1#8) n, .memRead n v] 9 t ∧
      t.r = v ∧ t.ip = s.ip + 2#8 ∧ UnchangedBut [.r] s t) ∧
  (∀ s : State, Fetches s [0x4A#8] →
    ∃ t, StepRuns s .ldrA 0x4A#8 [.memRead s.ip 0x4A#8] 4 t ∧
      t.r = s.a ∧ t.ip = s.ip + 1#8 ∧ UnchangedBut [.r] s t) ∧
  (∀ s : State, Fetches s [0x4B#8] →
    ∃ t, StepRuns s .ldrR 0x4B#8 [.memRead s.ip 0x4B#8] 4 t ∧ t.ip = s.ip + 1#8 ∧ UnchangedBut [] s t) ∧
  (∀ s : State, Fetches s [0x4C#8] →
    ∃ v t, ReadsCell s s.r v ∧ StepRuns s .ldrM 0x4C#8 [.memRead s.ip 0x4C#8, .memRead s.r v] 7 t ∧
      t.r = v ∧ t.ip = s.ip + 1#8 ∧ UnchangedBut [.r] s t) ∧
  (∀ (s : State) (n : Byte), Fetches s [0x4E#8, n] →
    ∃ t, StepRuns s (.ldrImm n) 0x4E#8 [.memRead s.ip 0x4E#8, .memRead (s.ip + 1#8) n] 6 t ∧
      t.r = n ∧ t.ip = s.ip + 2#8 ∧ UnchangedBut [.r] s t)

/-- 43_data_transfer.md section 4: STA stores A at byte 2, or at R. The byte is written where ram is fitted; that the
write is ignored elsewhere is decision D6 of the spec (20_memory.md section 3; log entry 3). -/
def Obligations.StaStoresA : Prop :=
  (∀ (s : State) (n : Byte), Fetches s [0x50#8, n] →
    ∃ t, StepRuns s (.staAddress n) 0x50#8 [.memRead s.ip 0x50#8, .memRead (s.ip + 1#8) n, .memWrite n s.a] 9 t ∧
      t.ip = s.ip + 2#8 ∧ StoresAt (eaDirect n) s.a s t) ∧
  (∀ s : State, Fetches s [0x54#8] →
    ∃ t, StepRuns s .staM 0x54#8 [.memRead s.ip 0x54#8, .memWrite s.r s.a] 7 t ∧
      t.ip = s.ip + 1#8 ∧ StoresAt (eaIndirect s.fetchPhase) s.a s t)

/-- 43_data_transfer.md section 5: STR stores R at byte 2, or at R itself. The byte is written where ram is fitted; that
the write is ignored elsewhere is decision D6 of the spec (20_memory.md section 3; log entry 3). -/
def Obligations.StrStoresR : Prop :=
  (∀ (s : State) (n : Byte), Fetches s [0x58#8, n] →
    ∃ t, StepRuns s (.strAddress n) 0x58#8 [.memRead s.ip 0x58#8, .memRead (s.ip + 1#8) n, .memWrite n s.r] 9 t ∧
      t.ip = s.ip + 2#8 ∧ StoresAt (eaDirect n) s.r s t) ∧
  (∀ s : State, Fetches s [0x5C#8] →
    ∃ t, StepRuns s .strM 0x5C#8 [.memRead s.ip 0x5C#8, .memWrite s.r s.r] 7 t ∧
      t.ip = s.ip + 1#8 ∧ StoresAt (eaIndirect s.fetchPhase) s.r s t)

/-- 30_encoding.md section 4 (R72): LDA A, LDR R and OR A change nothing but IP (and IR, which no program can read);
that FETCH is a fourth is decision D4 of the spec (log entry 10). -/
def Obligations.NoOperationsMoveOnlyIp : Prop :=
  ∀ (s : State) (b : Byte), b ∈ [0x42#8, 0x4B#8, 0x82#8, 0x00#8] → Fetches s [b] →
    ∃ t, step s = .next t ∧ t.ip = s.ip + 1#8 ∧ t.mem = s.mem ∧ UnchangedBut [] s t

/-! ### Arithmetic -/

/-- 44_arithmetic.md section 2: ADD leaves in A the sum of A and its operand, modulo 256, and writes no flag. That a
sum above FFh keeps its low 8 bits is the spec's own choice ("keep the low 8 bits", decision D1; log entry 9). -/
def Obligations.AddIsSumModulo256 : Prop :=
  (∀ (s : State) (n : Byte), Fetches s [0x60#8, n] →
    ∃ v t, ReadsCell s n v ∧
      StepRuns s (.addAddress n) 0x60#8 [.memRead s.ip 0x60#8, .memRead (s.ip + 1#8) n, .memRead n v] 9 t ∧
      t.a.toNat = (s.a.toNat + v.toNat) % 256 ∧ t.ip = s.ip + 2#8 ∧ UnchangedBut [.a] s t) ∧
  (∀ s : State, Fetches s [0x62#8] →
    ∃ t, StepRuns s .addA 0x62#8 [.memRead s.ip 0x62#8] 4 t ∧
      t.a.toNat = (s.a.toNat + s.a.toNat) % 256 ∧ t.ip = s.ip + 1#8 ∧ UnchangedBut [.a] s t) ∧
  (∀ s : State, Fetches s [0x63#8] →
    ∃ t, StepRuns s .addR 0x63#8 [.memRead s.ip 0x63#8] 4 t ∧
      t.a.toNat = (s.a.toNat + s.r.toNat) % 256 ∧ t.ip = s.ip + 1#8 ∧ UnchangedBut [.a] s t) ∧
  (∀ s : State, Fetches s [0x64#8] →
    ∃ v t, ReadsCell s s.r v ∧ StepRuns s .addM 0x64#8 [.memRead s.ip 0x64#8, .memRead s.r v] 7 t ∧
      t.a.toNat = (s.a.toNat + v.toNat) % 256 ∧ t.ip = s.ip + 1#8 ∧ UnchangedBut [.a] s t) ∧
  (∀ (s : State) (n : Byte), Fetches s [0x66#8, n] →
    ∃ t, StepRuns s (.addImm n) 0x66#8 [.memRead s.ip 0x66#8, .memRead (s.ip + 1#8) n] 6 t ∧
      t.a.toNat = (s.a.toNat + n.toNat) % 256 ∧ t.ip = s.ip + 2#8 ∧ UnchangedBut [.a] s t)

/-- 44_arithmetic.md section 3: SUB leaves in A the difference of A and its operand, modulo 256, and writes no flag.
That a difference below 00h keeps its low 8 bits is the spec's own choice ("keep the low 8 bits", decision D1; log
entry 9). -/
def Obligations.SubIsDifferenceModulo256 : Prop :=
  (∀ (s : State) (n : Byte), Fetches s [0x68#8, n] →
    ∃ v t, ReadsCell s n v ∧
      StepRuns s (.subAddress n) 0x68#8 [.memRead s.ip 0x68#8, .memRead (s.ip + 1#8) n, .memRead n v] 9 t ∧
      t.a.toNat = (256 + s.a.toNat - v.toNat) % 256 ∧ t.ip = s.ip + 2#8 ∧ UnchangedBut [.a] s t) ∧
  (∀ s : State, Fetches s [0x6A#8] →
    ∃ t, StepRuns s .subA 0x6A#8 [.memRead s.ip 0x6A#8] 4 t ∧
      t.a = 0x00#8 ∧ t.ip = s.ip + 1#8 ∧ UnchangedBut [.a] s t) ∧
  (∀ s : State, Fetches s [0x6B#8] →
    ∃ t, StepRuns s .subR 0x6B#8 [.memRead s.ip 0x6B#8] 4 t ∧
      t.a.toNat = (256 + s.a.toNat - s.r.toNat) % 256 ∧ t.ip = s.ip + 1#8 ∧ UnchangedBut [.a] s t) ∧
  (∀ s : State, Fetches s [0x6C#8] →
    ∃ v t, ReadsCell s s.r v ∧ StepRuns s .subM 0x6C#8 [.memRead s.ip 0x6C#8, .memRead s.r v] 7 t ∧
      t.a.toNat = (256 + s.a.toNat - v.toNat) % 256 ∧ t.ip = s.ip + 1#8 ∧ UnchangedBut [.a] s t)

/-- 44_arithmetic.md section 3, SUB I data: the difference of A and byte 2, modulo 256. Its flags and accesses are the
spec's own derivation, its clock count the spec's own choice (decision D12; log entry 17), the reduction modulo 256
decision D1 (log entry 9). -/
def Obligations.SubImmediateIsDifference : Prop :=
  ∀ (s : State) (n : Byte), Fetches s [0x6E#8, n] →
    ∃ t, StepRuns s (.subImm n) 0x6E#8 [.memRead s.ip 0x6E#8, .memRead (s.ip + 1#8) n] 6 t ∧
      t.a.toNat = (256 + s.a.toNat - n.toNat) % 256 ∧ t.ip = s.ip + 2#8 ∧ UnchangedBut [.a] s t

/-- 44_arithmetic.md section 4: DEC leaves in A its operand less one, modulo 256, whatever A was; it writes no memory
and no flag. DEC R leaves the same value in R. That DEC of 00h gives FFh is the spec's own choice (decision D1; log
entry 9). -/
def Obligations.DecIsPredecessorModulo256 : Prop :=
  (∀ (s : State) (n : Byte), Fetches s [0x70#8, n] →
    ∃ v t, ReadsCell s n v ∧
      StepRuns s (.decAddress n) 0x70#8 [.memRead s.ip 0x70#8, .memRead (s.ip + 1#8) n, .memRead n v] 11 t ∧
      t.a.toNat = (v.toNat + 255) % 256 ∧ t.ip = s.ip + 2#8 ∧ UnchangedBut [.a] s t) ∧
  (∀ s : State, Fetches s [0x72#8] →
    ∃ t, StepRuns s .decA 0x72#8 [.memRead s.ip 0x72#8] 4 t ∧
      t.a.toNat = (s.a.toNat + 255) % 256 ∧ t.ip = s.ip + 1#8 ∧ UnchangedBut [.a] s t) ∧
  (∀ s : State, Fetches s [0x73#8] →
    ∃ t, StepRuns s .decR 0x73#8 [.memRead s.ip 0x73#8] 7 t ∧
      t.r.toNat = (s.r.toNat + 255) % 256 ∧ t.a = t.r ∧ t.ip = s.ip + 1#8 ∧ UnchangedBut [.a, .r] s t) ∧
  (∀ s : State, Fetches s [0x74#8] →
    ∃ v t, ReadsCell s s.r v ∧ StepRuns s .decM 0x74#8 [.memRead s.ip 0x74#8, .memRead s.r v] 9 t ∧
      t.a.toNat = (v.toNat + 255) % 256 ∧ t.ip = s.ip + 1#8 ∧ UnchangedBut [.a] s t) ∧
  (∀ (s : State) (n : Byte), Fetches s [0x76#8, n] →
    ∃ t, StepRuns s (.decImm n) 0x76#8 [.memRead s.ip 0x76#8, .memRead (s.ip + 1#8) n] 8 t ∧
      t.a.toNat = (n.toNat + 255) % 256 ∧ t.ip = s.ip + 2#8 ∧ UnchangedBut [.a] s t)

/-! ### Logical -/

/-- 45_logical.md R181 to R185: OR leaves in A the bitwise inclusive OR of A and its operand. -/
def Obligations.OrIsBitwiseOr : Prop :=
  (∀ (s : State) (n : Byte), Fetches s [0x80#8, n] →
    ∃ v t, ReadsCell s n v ∧
      StepRuns s (.orAddress n) 0x80#8 [.memRead s.ip 0x80#8, .memRead (s.ip + 1#8) n, .memRead n v] 9 t ∧
      t.a = s.a ||| v ∧ t.ip = s.ip + 2#8 ∧ UnchangedBut [.a] s t) ∧
  (∀ s : State, Fetches s [0x82#8] →
    ∃ t, StepRuns s .orA 0x82#8 [.memRead s.ip 0x82#8] 4 t ∧ t.ip = s.ip + 1#8 ∧ UnchangedBut [] s t) ∧
  (∀ s : State, Fetches s [0x83#8] →
    ∃ t, StepRuns s .orR 0x83#8 [.memRead s.ip 0x83#8] 4 t ∧
      t.a = s.a ||| s.r ∧ t.ip = s.ip + 1#8 ∧ UnchangedBut [.a] s t) ∧
  (∀ s : State, Fetches s [0x84#8] →
    ∃ v t, ReadsCell s s.r v ∧ StepRuns s .orM 0x84#8 [.memRead s.ip 0x84#8, .memRead s.r v] 7 t ∧
      t.a = s.a ||| v ∧ t.ip = s.ip + 1#8 ∧ UnchangedBut [.a] s t) ∧
  (∀ (s : State) (n : Byte), Fetches s [0x86#8, n] →
    ∃ t, StepRuns s (.orImm n) 0x86#8 [.memRead s.ip 0x86#8, .memRead (s.ip + 1#8) n] 6 t ∧
      t.a = s.a ||| n ∧ t.ip = s.ip + 2#8 ∧ UnchangedBut [.a] s t)

/-- 45_logical.md R186 to R190: INV leaves in A the complement of every bit of its operand, whatever A was, and writes
no memory; INV R leaves the same value in R. -/
def Obligations.InvIsBitwiseComplement : Prop :=
  (∀ (s : State) (n : Byte), Fetches s [0x88#8, n] →
    ∃ v t, ReadsCell s n v ∧
      StepRuns s (.invAddress n) 0x88#8 [.memRead s.ip 0x88#8, .memRead (s.ip + 1#8) n, .memRead n v] 9 t ∧
      (∀ k, k < 8 → t.a.getLsbD k = !v.getLsbD k) ∧ t.ip = s.ip + 2#8 ∧ UnchangedBut [.a] s t) ∧
  (∀ s : State, Fetches s [0x8A#8] →
    ∃ t, StepRuns s .invA 0x8A#8 [.memRead s.ip 0x8A#8] 4 t ∧
      (∀ k, k < 8 → t.a.getLsbD k = !s.a.getLsbD k) ∧ t.ip = s.ip + 1#8 ∧ UnchangedBut [.a] s t) ∧
  (∀ s : State, Fetches s [0x8B#8] →
    ∃ t, StepRuns s .invR 0x8B#8 [.memRead s.ip 0x8B#8] 5 t ∧
      (∀ k, k < 8 → t.r.getLsbD k = !s.r.getLsbD k) ∧ t.a = t.r ∧ t.ip = s.ip + 1#8 ∧ UnchangedBut [.a, .r] s t) ∧
  (∀ s : State, Fetches s [0x8C#8] →
    ∃ v t, ReadsCell s s.r v ∧ StepRuns s .invM 0x8C#8 [.memRead s.ip 0x8C#8, .memRead s.r v] 7 t ∧
      (∀ k, k < 8 → t.a.getLsbD k = !v.getLsbD k) ∧ t.ip = s.ip + 1#8 ∧ UnchangedBut [.a] s t) ∧
  (∀ (s : State) (n : Byte), Fetches s [0x8E#8, n] →
    ∃ t, StepRuns s (.invImm n) 0x8E#8 [.memRead s.ip 0x8E#8, .memRead (s.ip + 1#8) n] 6 t ∧
      (∀ k, k < 8 → t.a.getLsbD k = !n.getLsbD k) ∧ t.ip = s.ip + 2#8 ∧ UnchangedBut [.a] s t)

/-- 45_logical.md R191 to R195: SHL leaves in A its operand shifted left by one, whatever A was, and writes no memory;
SHL R leaves the same value in R. -/
def Obligations.ShlShiftsLeftByOne : Prop :=
  (∀ (s : State) (n : Byte), Fetches s [0x90#8, n] →
    ∃ v t, ReadsCell s n v ∧
      StepRuns s (.shlAddress n) 0x90#8 [.memRead s.ip 0x90#8, .memRead (s.ip + 1#8) n, .memRead n v] 11 t ∧
      ShiftedLeft v t.a ∧ t.ip = s.ip + 2#8 ∧ UnchangedBut [.a] s t) ∧
  (∀ s : State, Fetches s [0x92#8] →
    ∃ t, StepRuns s .shlA 0x92#8 [.memRead s.ip 0x92#8] 4 t ∧
      ShiftedLeft s.a t.a ∧ t.ip = s.ip + 1#8 ∧ UnchangedBut [.a] s t) ∧
  (∀ s : State, Fetches s [0x93#8] →
    ∃ t, StepRuns s .shlR 0x93#8 [.memRead s.ip 0x93#8] 7 t ∧
      ShiftedLeft s.r t.r ∧ t.a = t.r ∧ t.ip = s.ip + 1#8 ∧ UnchangedBut [.a, .r] s t) ∧
  (∀ s : State, Fetches s [0x94#8] →
    ∃ v t, ReadsCell s s.r v ∧ StepRuns s .shlM 0x94#8 [.memRead s.ip 0x94#8, .memRead s.r v] 9 t ∧
      ShiftedLeft v t.a ∧ t.ip = s.ip + 1#8 ∧ UnchangedBut [.a] s t) ∧
  (∀ (s : State) (n : Byte), Fetches s [0x96#8, n] →
    ∃ t, StepRuns s (.shlImm n) 0x96#8 [.memRead s.ip 0x96#8, .memRead (s.ip + 1#8) n] 8 t ∧
      ShiftedLeft n t.a ∧ t.ip = s.ip + 2#8 ∧ UnchangedBut [.a] s t)

/-- 44_arithmetic.md section 2 and 45_logical.md section 4: `ADD A` and `SHL A` do the same, clock cycles included (the
sum modulo 256 is decision D1 of the spec; log entry 9). -/
def Obligations.AddAEqualsShlA : Prop :=
  ∀ s : State, exec .addA s = exec .shlA s

/-- 45_logical.md section 3: applying INV A twice restores A. -/
def Obligations.InvATwiceRestoresA : Prop :=
  ∀ s : State, ∃ t u, exec .invA s = .next t ∧ exec .invA t = .next u ∧ UnchangedBut [] s u ∧ u.ip = s.ip

/-! ### Which instruction touches what (10_state.md sections 1 and 7) -/

/-- 10_state.md section 1 (R22, the column "written by", which the spec marks as its own derivation): an instruction
the table does not list for A, R or Z leaves it alone. 10_state.md section 7 (R31): only STA and STR write memory. -/
def Obligations.OnlyListedWriters : Prop :=
  ∀ (i : Instr) (s t : State), exec i s = .next t →
    (writesA i = false → t.a = s.a) ∧ (writesR i = false → t.r = s.r) ∧ (writesZ i = false → t.z = s.z) ∧
    (writesMem i = false → t.mem = s.mem)

/-- 10_state.md section 3 (R26, which the spec marks as its own derivation): a step that changes Z has executed an opcode
whose operation field is that of CMP. -/
def Obligations.OnlyCmpChangesZ : Prop :=
  ∀ s t : State, step s = .next t → t.z ≠ s.z → t.ir.extractLsb' 3 5 = 0b00111#5

/-- 10_state.md section 1 (R22): an instruction not listed as a reader of A does the same whatever A holds. -/
def Obligations.OnlyListedReadersOfA : Prop :=
  ∀ (i : Instr) (s t : State) (x : Byte), readsA i = false → exec i s = .next t →
    exec i (s.setA x) = .next (if writesA i then t else t.setA x)

/-- 10_state.md section 1 (R22): an instruction not listed as a reader of R does the same whatever R holds. -/
def Obligations.OnlyListedReadersOfR : Prop :=
  ∀ (i : Instr) (s t : State) (x : Byte), readsR i = false → exec i s = .next t →
    exec i (s.setR x) = .next (if writesR i then t else t.setR x)

/-- 10_state.md section 1 (R22) and section 3: an instruction other than JNZ and JZ does the same whatever Z holds. -/
def Obligations.OnlyConditionalJumpsReadZ : Prop :=
  ∀ (i : Instr) (s t : State) (x : Bool), readsZ i = false → exec i s = .next t →
    exec i (s.setZ x) = .next (if writesZ i then t else t.setZ x)

/-- 20_memory.md section 6 (R55) and 10_state.md section 7 (R32): IN and OUT make exactly one port access each, and no
other instruction makes any or uses up an answer of PORT_ENV. -/
def Obligations.PortAccessesAreInAndOut : Prop :=
  ∀ (i : Instr) (s t : State), exec i s = .next t →
    (reachesPorts i = false → t.portScript = s.portScript) ∧
    ∃ es, t.trace = es ++ s.trace ∧ (es.filter Event.isPort).length = if reachesPorts i then 1 else 0

/-- 20_memory.md section 6 (R50, which the spec marks as its own derivation): a step makes at most three accesses, the
first the opcode read at IP, at most one of them a write, and the write last. -/
def Obligations.AtMostThreeAccessesWriteLast : Prop :=
  ∀ s t : State, step s = .next t →
    ∃ later, t.trace = later ++ .memRead s.ip (s.cell s.ip) :: s.trace ∧ later.length ≤ 2 ∧
      ∀ e ∈ later.tail, e.isWrite = false

/-! ### Time and the micro-instructions -/

/-- 70_reset_and_hazards.md section 5 (R241, with decision D12 of the spec for SUB I data): the clock cycles of every
step are those of the table. -/
def Obligations.ClockCyclesAreTheTable : Prop :=
  ∀ (s t : State) (i : Instr) (rest : List Byte), decode s.fetchBytes = .ok (i, rest) → step s = .next t →
    t.clock = s.clock + clockFigure s.z i

/-- 70_reset_and_hazards.md section 5 (R240): the figure of every instruction equals 3 plus the number of
micro-instruction lines after FETCH. The lines the spec does not print are DEDUCED (log entry 14). -/
def Obligations.ClockCyclesCountMicroLines : Prop :=
  ∀ (z : Bool) (i : Instr), clockFigure z i = 3 + (executeLines z i.form).length

/-- 40_fetch.md section 3 (R84) and 10_state.md section 6 (R30): the micro-program of an instruction, one line a clock,
reaches from any contents of AR, DR, OR and the ALU connections the very state that the step answers: the same
registers, memory, accesses in the same order, and clock cycles. The lines the spec does not print are DEDUCED (log
entry 14). -/
def Obligations.MicroProgramsReachTheStep : Prop :=
  ∀ (m : MicroState) (i : Instr) (rest : List Byte), decode m.cpu.fetchBytes = .ok (i, rest) →
    step m.cpu = .next (runLines (microProgram m.cpu.z i) m).cpu

/-! ### Memory -/

/-- 20_memory.md section 6 (R49), for memory contents alone: a read after a write of the same address gives the value
written, and every other address reads as before. -/
def Obligations.MemoryReadAfterWrite : Prop :=
  ∀ (m : Memory) (k : Nat) (v : Byte), m.wf = true →
    (m.write k v).read k = v ∧ ∀ j, j ≠ k → (m.write k v).read j = m.read j

/-- The model's own form of memory (log entries 2 and 18; 10_state.md section 7): two memories in canonical form that
read the same at every address are the same data. -/
def Obligations.EqualReadsEqualMemory : Prop :=
  ∀ m m' : Memory, m.wf = true → m'.wf = true → (∀ k, m.read k = m'.read k) → m = m'

/-- The model's own invariant (log entry 18; 10_state.md section 7): every step keeps the canonical form of memory. -/
def Obligations.StepKeepsMemoryForm : Prop :=
  ∀ s t : State, s.Inv → step s = .next t → t.Inv

/-- 70_reset_and_hazards.md section 1: whatever the host and the draws choose, memory has its canonical form after reset
if MEM_INIT was given in it; so it has in `State.reset`. -/
def Obligations.ResetHasMemoryForm : Prop :=
  (∀ b : Boot, b.memInit.wf = true → (State.afterReset b).Inv) ∧ State.reset.Inv

/-- 20_memory.md section 3 (R46, decision D6 of the spec; log entry 3): in a run of any length the address map stays, and
a cell that is not ram keeps its byte. -/
def Obligations.RunKeepsMapAndRom : Prop :=
  ∀ (k : Nat) (s t : State), Runs k s t →
    t.memMap = s.memMap ∧ ∀ p : Addr, s.kindAt p ≠ .ram → t.mem.read p.toNat = s.mem.read p.toNat

/-- 20_memory.md section 6 (R49, decision D9 of the spec): every step keeps the agreement of memory and trace. So a read
of ram returns the value of the most recent write to its address, or what the cell held at first. -/
def Obligations.StepKeepsCoherence : Prop :=
  ∀ (init : Addr → Byte) (s t : State), s.Inv → Coherent init s → step s = .next t → Coherent init t

/-- 20_memory.md section 6 (R49): after reset memory and trace agree, with MEM_INIT as the first contents. -/
def Obligations.ResetIsCoherent : Prop :=
  ∀ b : Boot, Coherent (fun x => b.memInit.read x.toNat) (State.afterReset b)

/-- 20_memory.md section 9 (R53, which the spec marks as its own derivation): a byte that STA or STR stores in ram at the
address of the next instruction is the byte the very next FETCH reads. -/
def Obligations.StoreIsSeenByTheNextFetch : Prop :=
  ∀ (s : State) (n : Byte), s.Inv →
    (Fetches s [0x50#8, n] → n = s.ip + 2#8 → s.kindAt n = .ram →
      ∃ t, step s = .next t ∧ t.fetchPhase.ir = s.a) ∧
    (Fetches s [0x54#8] → s.r = s.ip + 1#8 → s.kindAt s.r = .ram →
      ∃ t, step s = .next t ∧ t.fetchPhase.ir = s.a) ∧
    (Fetches s [0x58#8, n] → n = s.ip + 2#8 → s.kindAt n = .ram →
      ∃ t, step s = .next t ∧ t.fetchPhase.ir = s.r) ∧
    (Fetches s [0x5C#8] → s.r = s.ip + 1#8 → s.kindAt s.r = .ram →
      ∃ t, step s = .next t ∧ t.fetchPhase.ir = s.r)

/-! ### Reset and the end of a run -/

/-- 70_reset_and_hazards.md section 1 (R230, R231, decisions D5 and D6 of the spec; log entries 1 and 12): whatever A, R,
Z, IR, MEM_INIT and the platform are, the first access of the first step is the read at RESET_IP; by default RESET_IP is
00h and every address is ram. -/
def Obligations.FirstFetchIsAtResetIp : Prop :=
  (∀ (b : Boot) (t : State), step (State.afterReset b) = .next t →
    ∃ later v, t.trace = later ++ [.memRead b.resetIp v]) ∧
  State.reset.ip = 0x00#8 ∧ ∀ p, State.reset.kindAt p = .ram

/-- 70_reset_and_hazards.md section 3 (R234, decision D10 of the spec; log entry 20): a state is halted exactly when the
instruction at IP is one of the six jumps to itself. -/
def Obligations.HaltedIffSelfJump : Prop :=
  ∀ s : State, IsHalted s ↔ SelfJump s
end

