-- ==== Sys2Proof/Laws/Decode.lean ====
section
/-! SUPPORT. What the decoder does with a first byte, by the row the byte has in the listing. -/

namespace Sys2Proof

/-- A byte that the listing gives an entry has a row with that entry. -/
theorem lookup_mem {b : Byte} {e : Entry} : ∀ {table : List Row}, lookup b table = some e → ⟨b, e⟩ ∈ table
  | row :: table, h => by
    unfold lookup at h
    split at h
    · obtain rfl := ‹row.byte1 = b›
      cases h
      exact List.mem_cons_self
    · exact List.mem_cons_of_mem _ (lookup_mem h)

theorem decode_unlisted {b : Byte} (h : lookup b rows = none) (rest : List Byte) :
    decode (b :: rest) = .error (.undefinedByte b) := by
  simp only [decode, h]

theorem decode_one {b : Byte} {i : Instr} (h : lookup b rows = some (.one i)) (rest : List Byte) :
    decode (b :: rest) = .ok (i, rest) := by
  simp only [decode, h]

theorem decode_two {b : Byte} {f : Byte → Instr} (h : lookup b rows = some (.two f)) (n : Byte) (rest : List Byte) :
    decode (b :: n :: rest) = .ok (f n, rest) := by
  simp only [decode, h]

theorem decode_two_truncated {b : Byte} {f : Byte → Instr} (h : lookup b rows = some (.two f)) :
    decode [b] = .error .truncated := by
  simp only [decode, h]

/-- Bytes that decode begin with a listed byte: that of a one-byte instruction, or that of a two-byte one and its
byte 2. -/
theorem decode_ok {bs : List Byte} {i : Instr} {rest : List Byte} (h : decode bs = .ok (i, rest)) :
    (∃ b, bs = b :: rest ∧ lookup b rows = some (.one i)) ∨
    (∃ b n f, bs = b :: n :: rest ∧ lookup b rows = some (.two f) ∧ i = f n) := by
  rcases bs with _ | ⟨b, bs⟩
  · simp [decode] at h
  · rcases hb : lookup b rows with _ | (j | f)
    · simp [decode_unlisted hb] at h
    · simp only [decode_one hb, Except.ok.injEq, Prod.mk.injEq] at h
      obtain ⟨rfl, rfl⟩ := h
      exact .inl ⟨b, rfl, hb⟩
    · rcases bs with _ | ⟨n, bs⟩
      · simp [decode_two_truncated hb] at h
      · simp only [decode_two hb, Except.ok.injEq, Prod.mk.injEq] at h
        obtain ⟨rfl, rfl⟩ := h
        exact .inr ⟨b, n, f, rfl, hb, rfl⟩

end Sys2Proof
end

