-- ==== Sys2Proof/Laws/Memory.lean ====
section
/-! SUPPORT. Every memory operation keeps the canonical form. -/

namespace Sys2Proof.Machine

open Sys2Proof

theorem Memory.wfFrom_cons {lo p : Nat} {v : Byte} {m : Memory} :
    Memory.wfFrom lo ((p, v) :: m) = true ↔
      lo ≤ p ∧ p < 256 ∧ v ≠ Config.unlistedByte ∧ Memory.wfFrom (p + 1) m = true := by
  simp only [Memory.wfFrom, Bool.and_eq_true, decide_eq_true_eq, and_assoc]

/-- A list in form above a bound is in form above any lower bound. -/
theorem Memory.wfFrom_mono {lo lo' : Nat} (h : lo' ≤ lo) :
    ∀ {m : Memory}, Memory.wfFrom lo m = true → Memory.wfFrom lo' m = true
  | [], _ => rfl
  | (_, _) :: _, hm => by
    obtain ⟨h₁, h₂, h₃, h₄⟩ := Memory.wfFrom_cons.mp hm
    exact Memory.wfFrom_cons.mpr ⟨h.trans h₁, h₂, h₃, h₄⟩

/-- Putting a cell in front keeps the form. -/
theorem Memory.wfFrom_consCell {lo k : Nat} {v : Byte} {m : Memory} (hk : lo ≤ k) (h256 : k < 256)
    (hm : Memory.wfFrom (k + 1) m = true) : Memory.wfFrom lo (Memory.cons k v m) = true := by
  unfold Memory.cons
  split
  · exact Memory.wfFrom_mono (by omega) hm
  · exact Memory.wfFrom_cons.mpr ⟨hk, h256, ‹_›, hm⟩

theorem Memory.wfFrom_write {k : Nat} {v : Byte} (h256 : k < 256) :
    ∀ {m : Memory} {lo : Nat}, lo ≤ k → Memory.wfFrom lo m = true → Memory.wfFrom lo (m.write k v) = true
  | [], _, hk, _ => Memory.wfFrom_consCell hk h256 rfl
  | (p, w) :: m, lo, hk, hm => by
    obtain ⟨h₁, h₂, h₃, h₄⟩ := Memory.wfFrom_cons.mp hm
    unfold Memory.write
    split
    · exact Memory.wfFrom_consCell hk h256 (Memory.wfFrom_cons.mpr ⟨by omega, h₂, h₃, h₄⟩)
    · split
      · exact Memory.wfFrom_consCell hk h256 (Memory.wfFrom_mono (by omega) h₄)
      · exact Memory.wfFrom_cons.mpr ⟨h₁, h₂, h₃, Memory.wfFrom_write h256 (by omega) h₄⟩

/-- A write keeps the canonical form. -/
theorem Memory.write_wf {m : Memory} {k : Nat} {v : Byte} (h256 : k < 256) (hm : m.wf = true) :
    (m.write k v).wf = true :=
  Memory.wfFrom_write h256 (Nat.zero_le k) hm

/-- `MemWrite` keeps the canonical form. -/
theorem State.memWrite_wf {s : State} {p : Addr} {v : Byte} (h : s.mem.wf = true) : (s.memWrite p v).mem.wf = true := by
  unfold State.memWrite
  split
  · exact Memory.write_wf p.isLt h
  · exact h
  · exact h

/-- Placing a byte from outside keeps the canonical form. -/
theorem State.place_wf {s : State} {p : Addr} {v : Byte} (h : s.mem.wf = true) : (s.place p v).mem.wf = true :=
  Memory.write_wf p.isLt h

/-- Memory with nothing listed is in canonical form. -/
theorem State.reset_wf : State.reset.mem.wf = true := rfl

end Sys2Proof.Machine
end

