-- ==== Sys2Proof/Laws/State.lean ====
section
/-! SUPPORT. One lemma per field per update of the state, so that no later proof unfolds a record update. -/

namespace Sys2Proof.Machine

open Sys2Proof

/-! ### setA -/

@[simp] theorem State.setA_a (s : State) (v : Byte) : (s.setA v).a = v := rfl
@[simp] theorem State.setA_r (s : State) (v : Byte) : (s.setA v).r = s.r := rfl
@[simp] theorem State.setA_ip (s : State) (v : Byte) : (s.setA v).ip = s.ip := rfl
@[simp] theorem State.setA_z (s : State) (v : Byte) : (s.setA v).z = s.z := rfl
@[simp] theorem State.setA_ir (s : State) (v : Byte) : (s.setA v).ir = s.ir := rfl
@[simp] theorem State.setA_mem (s : State) (v : Byte) : (s.setA v).mem = s.mem := rfl
@[simp] theorem State.setA_memMap (s : State) (v : Byte) : (s.setA v).memMap = s.memMap := rfl
@[simp] theorem State.setA_portScript (s : State) (v : Byte) : (s.setA v).portScript = s.portScript := rfl
@[simp] theorem State.setA_trace (s : State) (v : Byte) : (s.setA v).trace = s.trace := rfl
@[simp] theorem State.setA_clock (s : State) (v : Byte) : (s.setA v).clock = s.clock := rfl
@[simp] theorem State.setA_kindAt (s : State) (v : Byte) (q : Addr) : (s.setA v).kindAt q = s.kindAt q := by
  simp only [State.kindAt, State.setA_memMap]

/-! ### setR -/

@[simp] theorem State.setR_a (s : State) (v : Byte) : (s.setR v).a = s.a := rfl
@[simp] theorem State.setR_r (s : State) (v : Byte) : (s.setR v).r = v := rfl
@[simp] theorem State.setR_ip (s : State) (v : Byte) : (s.setR v).ip = s.ip := rfl
@[simp] theorem State.setR_z (s : State) (v : Byte) : (s.setR v).z = s.z := rfl
@[simp] theorem State.setR_ir (s : State) (v : Byte) : (s.setR v).ir = s.ir := rfl
@[simp] theorem State.setR_mem (s : State) (v : Byte) : (s.setR v).mem = s.mem := rfl
@[simp] theorem State.setR_memMap (s : State) (v : Byte) : (s.setR v).memMap = s.memMap := rfl
@[simp] theorem State.setR_portScript (s : State) (v : Byte) : (s.setR v).portScript = s.portScript := rfl
@[simp] theorem State.setR_trace (s : State) (v : Byte) : (s.setR v).trace = s.trace := rfl
@[simp] theorem State.setR_clock (s : State) (v : Byte) : (s.setR v).clock = s.clock := rfl
@[simp] theorem State.setR_kindAt (s : State) (v : Byte) (q : Addr) : (s.setR v).kindAt q = s.kindAt q := by
  simp only [State.kindAt, State.setR_memMap]

/-! ### setZ -/

@[simp] theorem State.setZ_a (s : State) (v : Bool) : (s.setZ v).a = s.a := rfl
@[simp] theorem State.setZ_r (s : State) (v : Bool) : (s.setZ v).r = s.r := rfl
@[simp] theorem State.setZ_ip (s : State) (v : Bool) : (s.setZ v).ip = s.ip := rfl
@[simp] theorem State.setZ_z (s : State) (v : Bool) : (s.setZ v).z = v := rfl
@[simp] theorem State.setZ_ir (s : State) (v : Bool) : (s.setZ v).ir = s.ir := rfl
@[simp] theorem State.setZ_mem (s : State) (v : Bool) : (s.setZ v).mem = s.mem := rfl
@[simp] theorem State.setZ_memMap (s : State) (v : Bool) : (s.setZ v).memMap = s.memMap := rfl
@[simp] theorem State.setZ_portScript (s : State) (v : Bool) : (s.setZ v).portScript = s.portScript := rfl
@[simp] theorem State.setZ_trace (s : State) (v : Bool) : (s.setZ v).trace = s.trace := rfl
@[simp] theorem State.setZ_clock (s : State) (v : Bool) : (s.setZ v).clock = s.clock := rfl
@[simp] theorem State.setZ_kindAt (s : State) (v : Bool) (q : Addr) : (s.setZ v).kindAt q = s.kindAt q := by
  simp only [State.kindAt, State.setZ_memMap]

/-! ### setIp -/

@[simp] theorem State.setIp_a (s : State) (v : Addr) : (s.setIp v).a = s.a := rfl
@[simp] theorem State.setIp_r (s : State) (v : Addr) : (s.setIp v).r = s.r := rfl
@[simp] theorem State.setIp_ip (s : State) (v : Addr) : (s.setIp v).ip = v := rfl
@[simp] theorem State.setIp_z (s : State) (v : Addr) : (s.setIp v).z = s.z := rfl
@[simp] theorem State.setIp_ir (s : State) (v : Addr) : (s.setIp v).ir = s.ir := rfl
@[simp] theorem State.setIp_mem (s : State) (v : Addr) : (s.setIp v).mem = s.mem := rfl
@[simp] theorem State.setIp_memMap (s : State) (v : Addr) : (s.setIp v).memMap = s.memMap := rfl
@[simp] theorem State.setIp_portScript (s : State) (v : Addr) : (s.setIp v).portScript = s.portScript := rfl
@[simp] theorem State.setIp_trace (s : State) (v : Addr) : (s.setIp v).trace = s.trace := rfl
@[simp] theorem State.setIp_clock (s : State) (v : Addr) : (s.setIp v).clock = s.clock := rfl
@[simp] theorem State.setIp_kindAt (s : State) (v : Addr) (q : Addr) : (s.setIp v).kindAt q = s.kindAt q := by
  simp only [State.kindAt, State.setIp_memMap]

/-! ### setIr -/

@[simp] theorem State.setIr_a (s : State) (v : Byte) : (s.setIr v).a = s.a := rfl
@[simp] theorem State.setIr_r (s : State) (v : Byte) : (s.setIr v).r = s.r := rfl
@[simp] theorem State.setIr_ip (s : State) (v : Byte) : (s.setIr v).ip = s.ip := rfl
@[simp] theorem State.setIr_z (s : State) (v : Byte) : (s.setIr v).z = s.z := rfl
@[simp] theorem State.setIr_ir (s : State) (v : Byte) : (s.setIr v).ir = v := rfl
@[simp] theorem State.setIr_mem (s : State) (v : Byte) : (s.setIr v).mem = s.mem := rfl
@[simp] theorem State.setIr_memMap (s : State) (v : Byte) : (s.setIr v).memMap = s.memMap := rfl
@[simp] theorem State.setIr_portScript (s : State) (v : Byte) : (s.setIr v).portScript = s.portScript := rfl
@[simp] theorem State.setIr_trace (s : State) (v : Byte) : (s.setIr v).trace = s.trace := rfl
@[simp] theorem State.setIr_clock (s : State) (v : Byte) : (s.setIr v).clock = s.clock := rfl
@[simp] theorem State.setIr_kindAt (s : State) (v : Byte) (q : Addr) : (s.setIr v).kindAt q = s.kindAt q := by
  simp only [State.kindAt, State.setIr_memMap]

/-! ### incIp -/

@[simp] theorem State.incIp_a (s : State) : (s.incIp).a = s.a := rfl
@[simp] theorem State.incIp_r (s : State) : (s.incIp).r = s.r := rfl
@[simp] theorem State.incIp_ip (s : State) : (s.incIp).ip = s.ip + 1#8 := rfl
@[simp] theorem State.incIp_z (s : State) : (s.incIp).z = s.z := rfl
@[simp] theorem State.incIp_ir (s : State) : (s.incIp).ir = s.ir := rfl
@[simp] theorem State.incIp_mem (s : State) : (s.incIp).mem = s.mem := rfl
@[simp] theorem State.incIp_memMap (s : State) : (s.incIp).memMap = s.memMap := rfl
@[simp] theorem State.incIp_portScript (s : State) : (s.incIp).portScript = s.portScript := rfl
@[simp] theorem State.incIp_trace (s : State) : (s.incIp).trace = s.trace := rfl
@[simp] theorem State.incIp_clock (s : State) : (s.incIp).clock = s.clock := rfl
@[simp] theorem State.incIp_kindAt (s : State) (q : Addr) : (s.incIp).kindAt q = s.kindAt q := by
  simp only [State.kindAt, State.incIp_memMap]

/-! ### record -/

@[simp] theorem State.record_a (s : State) (e : Event) : (s.record e).a = s.a := rfl
@[simp] theorem State.record_r (s : State) (e : Event) : (s.record e).r = s.r := rfl
@[simp] theorem State.record_ip (s : State) (e : Event) : (s.record e).ip = s.ip := rfl
@[simp] theorem State.record_z (s : State) (e : Event) : (s.record e).z = s.z := rfl
@[simp] theorem State.record_ir (s : State) (e : Event) : (s.record e).ir = s.ir := rfl
@[simp] theorem State.record_mem (s : State) (e : Event) : (s.record e).mem = s.mem := rfl
@[simp] theorem State.record_memMap (s : State) (e : Event) : (s.record e).memMap = s.memMap := rfl
@[simp] theorem State.record_portScript (s : State) (e : Event) : (s.record e).portScript = s.portScript := rfl
@[simp] theorem State.record_trace (s : State) (e : Event) : (s.record e).trace = e :: s.trace := rfl
@[simp] theorem State.record_clock (s : State) (e : Event) : (s.record e).clock = s.clock := rfl
@[simp] theorem State.record_kindAt (s : State) (e : Event) (q : Addr) : (s.record e).kindAt q = s.kindAt q := by
  simp only [State.kindAt, State.record_memMap]

/-! ### spend -/

@[simp] theorem State.spend_a (s : State) (n : Nat) : (s.spend n).a = s.a := rfl
@[simp] theorem State.spend_r (s : State) (n : Nat) : (s.spend n).r = s.r := rfl
@[simp] theorem State.spend_ip (s : State) (n : Nat) : (s.spend n).ip = s.ip := rfl
@[simp] theorem State.spend_z (s : State) (n : Nat) : (s.spend n).z = s.z := rfl
@[simp] theorem State.spend_ir (s : State) (n : Nat) : (s.spend n).ir = s.ir := rfl
@[simp] theorem State.spend_mem (s : State) (n : Nat) : (s.spend n).mem = s.mem := rfl
@[simp] theorem State.spend_memMap (s : State) (n : Nat) : (s.spend n).memMap = s.memMap := rfl
@[simp] theorem State.spend_portScript (s : State) (n : Nat) : (s.spend n).portScript = s.portScript := rfl
@[simp] theorem State.spend_trace (s : State) (n : Nat) : (s.spend n).trace = s.trace := rfl
@[simp] theorem State.spend_clock (s : State) (n : Nat) : (s.spend n).clock = s.clock + n := rfl
@[simp] theorem State.spend_kindAt (s : State) (n : Nat) (q : Addr) : (s.spend n).kindAt q = s.kindAt q := by
  simp only [State.kindAt, State.spend_memMap]

/-! ### portWrite -/

@[simp] theorem State.portWrite_a (s : State) (p : Addr) (v : Byte) : (s.portWrite p v).a = s.a := rfl
@[simp] theorem State.portWrite_r (s : State) (p : Addr) (v : Byte) : (s.portWrite p v).r = s.r := rfl
@[simp] theorem State.portWrite_ip (s : State) (p : Addr) (v : Byte) : (s.portWrite p v).ip = s.ip := rfl
@[simp] theorem State.portWrite_z (s : State) (p : Addr) (v : Byte) : (s.portWrite p v).z = s.z := rfl
@[simp] theorem State.portWrite_ir (s : State) (p : Addr) (v : Byte) : (s.portWrite p v).ir = s.ir := rfl
@[simp] theorem State.portWrite_mem (s : State) (p : Addr) (v : Byte) : (s.portWrite p v).mem = s.mem := rfl
@[simp] theorem State.portWrite_memMap (s : State) (p : Addr) (v : Byte) : (s.portWrite p v).memMap = s.memMap := rfl
@[simp] theorem State.portWrite_portScript (s : State) (p : Addr) (v : Byte) : (s.portWrite p v).portScript = s.portScript := rfl
@[simp] theorem State.portWrite_trace (s : State) (p : Addr) (v : Byte) : (s.portWrite p v).trace = .portWrite p v :: s.trace := rfl
@[simp] theorem State.portWrite_clock (s : State) (p : Addr) (v : Byte) : (s.portWrite p v).clock = s.clock := rfl
@[simp] theorem State.portWrite_kindAt (s : State) (p : Addr) (v : Byte) (q : Addr) : (s.portWrite p v).kindAt q = s.kindAt q := by
  simp only [State.kindAt, State.portWrite_memMap]

/-! ### readByte2 -/

@[simp] theorem State.readByte2_a (s : State) (n : Byte) : (s.readByte2 n).a = s.a := rfl
@[simp] theorem State.readByte2_r (s : State) (n : Byte) : (s.readByte2 n).r = s.r := rfl
@[simp] theorem State.readByte2_ip (s : State) (n : Byte) : (s.readByte2 n).ip = s.ip := rfl
@[simp] theorem State.readByte2_z (s : State) (n : Byte) : (s.readByte2 n).z = s.z := rfl
@[simp] theorem State.readByte2_ir (s : State) (n : Byte) : (s.readByte2 n).ir = s.ir := rfl
@[simp] theorem State.readByte2_mem (s : State) (n : Byte) : (s.readByte2 n).mem = s.mem := rfl
@[simp] theorem State.readByte2_memMap (s : State) (n : Byte) : (s.readByte2 n).memMap = s.memMap := rfl
@[simp] theorem State.readByte2_portScript (s : State) (n : Byte) : (s.readByte2 n).portScript = s.portScript := rfl
@[simp] theorem State.readByte2_trace (s : State) (n : Byte) : (s.readByte2 n).trace = .memRead s.ip n :: s.trace := rfl
@[simp] theorem State.readByte2_clock (s : State) (n : Byte) : (s.readByte2 n).clock = s.clock := rfl
@[simp] theorem State.readByte2_kindAt (s : State) (n : Byte) (q : Addr) : (s.readByte2 n).kindAt q = s.kindAt q := by
  simp only [State.kindAt, State.readByte2_memMap]

/-! ### takeByte2 -/

@[simp] theorem State.takeByte2_a (s : State) (n : Byte) : (s.takeByte2 n).a = s.a := rfl
@[simp] theorem State.takeByte2_r (s : State) (n : Byte) : (s.takeByte2 n).r = s.r := rfl
@[simp] theorem State.takeByte2_ip (s : State) (n : Byte) : (s.takeByte2 n).ip = s.ip + 1#8 := rfl
@[simp] theorem State.takeByte2_z (s : State) (n : Byte) : (s.takeByte2 n).z = s.z := rfl
@[simp] theorem State.takeByte2_ir (s : State) (n : Byte) : (s.takeByte2 n).ir = s.ir := rfl
@[simp] theorem State.takeByte2_mem (s : State) (n : Byte) : (s.takeByte2 n).mem = s.mem := rfl
@[simp] theorem State.takeByte2_memMap (s : State) (n : Byte) : (s.takeByte2 n).memMap = s.memMap := rfl
@[simp] theorem State.takeByte2_portScript (s : State) (n : Byte) : (s.takeByte2 n).portScript = s.portScript := rfl
@[simp] theorem State.takeByte2_trace (s : State) (n : Byte) : (s.takeByte2 n).trace = .memRead s.ip n :: s.trace := rfl
@[simp] theorem State.takeByte2_clock (s : State) (n : Byte) : (s.takeByte2 n).clock = s.clock := rfl
@[simp] theorem State.takeByte2_kindAt (s : State) (n : Byte) (q : Addr) : (s.takeByte2 n).kindAt q = s.kindAt q := by
  simp only [State.kindAt, State.takeByte2_memMap]

/-! ### fetchPhase -/

@[simp] theorem State.fetchPhase_a (s : State) : (s.fetchPhase).a = s.a := rfl
@[simp] theorem State.fetchPhase_r (s : State) : (s.fetchPhase).r = s.r := rfl
@[simp] theorem State.fetchPhase_ip (s : State) : (s.fetchPhase).ip = s.ip + 1#8 := rfl
@[simp] theorem State.fetchPhase_z (s : State) : (s.fetchPhase).z = s.z := rfl
@[simp] theorem State.fetchPhase_ir (s : State) : (s.fetchPhase).ir = s.cell s.ip := rfl
@[simp] theorem State.fetchPhase_mem (s : State) : (s.fetchPhase).mem = s.mem := rfl
@[simp] theorem State.fetchPhase_memMap (s : State) : (s.fetchPhase).memMap = s.memMap := rfl
@[simp] theorem State.fetchPhase_portScript (s : State) : (s.fetchPhase).portScript = s.portScript := rfl
@[simp] theorem State.fetchPhase_trace (s : State) : (s.fetchPhase).trace = .memRead s.ip (s.cell s.ip) :: s.trace := rfl
@[simp] theorem State.fetchPhase_clock (s : State) : (s.fetchPhase).clock = s.clock + 3 := rfl
@[simp] theorem State.fetchPhase_kindAt (s : State) (q : Addr) : (s.fetchPhase).kindAt q = s.kindAt q := by
  simp only [State.kindAt, State.fetchPhase_memMap]

/-! ### memRead -/

@[simp] theorem State.memRead_fst (s : State) (p : Addr) : (s.memRead p).1 = s.cell p := rfl
@[simp] theorem State.memRead_a (s : State) (p : Addr) : (s.memRead p).2.a = s.a := rfl
@[simp] theorem State.memRead_r (s : State) (p : Addr) : (s.memRead p).2.r = s.r := rfl
@[simp] theorem State.memRead_ip (s : State) (p : Addr) : (s.memRead p).2.ip = s.ip := rfl
@[simp] theorem State.memRead_z (s : State) (p : Addr) : (s.memRead p).2.z = s.z := rfl
@[simp] theorem State.memRead_ir (s : State) (p : Addr) : (s.memRead p).2.ir = s.ir := rfl
@[simp] theorem State.memRead_mem (s : State) (p : Addr) : (s.memRead p).2.mem = s.mem := rfl
@[simp] theorem State.memRead_memMap (s : State) (p : Addr) : (s.memRead p).2.memMap = s.memMap := rfl
@[simp] theorem State.memRead_portScript (s : State) (p : Addr) : (s.memRead p).2.portScript = s.portScript := rfl
@[simp] theorem State.memRead_trace (s : State) (p : Addr) : (s.memRead p).2.trace = .memRead p (s.cell p) :: s.trace := rfl
@[simp] theorem State.memRead_clock (s : State) (p : Addr) : (s.memRead p).2.clock = s.clock := rfl
@[simp] theorem State.memRead_kindAt (s : State) (p q : Addr) : (s.memRead p).2.kindAt q = s.kindAt q := by
  simp only [State.kindAt, State.memRead_memMap]

/-! ### portRead -/

@[simp] theorem State.portRead_fst (s : State) (p : Addr) : (s.portRead p).1 = s.portByte p := rfl
@[simp] theorem State.portRead_a (s : State) (p : Addr) : (s.portRead p).2.a = s.a := rfl
@[simp] theorem State.portRead_r (s : State) (p : Addr) : (s.portRead p).2.r = s.r := rfl
@[simp] theorem State.portRead_ip (s : State) (p : Addr) : (s.portRead p).2.ip = s.ip := rfl
@[simp] theorem State.portRead_z (s : State) (p : Addr) : (s.portRead p).2.z = s.z := rfl
@[simp] theorem State.portRead_ir (s : State) (p : Addr) : (s.portRead p).2.ir = s.ir := rfl
@[simp] theorem State.portRead_mem (s : State) (p : Addr) : (s.portRead p).2.mem = s.mem := rfl
@[simp] theorem State.portRead_memMap (s : State) (p : Addr) : (s.portRead p).2.memMap = s.memMap := rfl
@[simp] theorem State.portRead_portScript (s : State) (p : Addr) : (s.portRead p).2.portScript = s.portScript.tail := rfl
@[simp] theorem State.portRead_trace (s : State) (p : Addr) : (s.portRead p).2.trace = .portRead p (s.portByte p) :: s.trace := rfl
@[simp] theorem State.portRead_clock (s : State) (p : Addr) : (s.portRead p).2.clock = s.clock := rfl
@[simp] theorem State.portRead_kindAt (s : State) (p q : Addr) : (s.portRead p).2.kindAt q = s.kindAt q := by
  simp only [State.kindAt, State.portRead_memMap]

/-! ### memWrite -/

@[simp] theorem State.memWrite_mem (s : State) (p : Addr) (v : Byte) :
    (s.memWrite p v).mem = if s.kindAt p = .ram then s.mem.write p.toNat v else s.mem := by
  unfold State.memWrite; split <;> simp_all

@[simp] theorem State.memWrite_a (s : State) (p : Addr) (v : Byte) : (s.memWrite p v).a = s.a := by
  unfold State.memWrite; split <;> rfl
@[simp] theorem State.memWrite_r (s : State) (p : Addr) (v : Byte) : (s.memWrite p v).r = s.r := by
  unfold State.memWrite; split <;> rfl
@[simp] theorem State.memWrite_ip (s : State) (p : Addr) (v : Byte) : (s.memWrite p v).ip = s.ip := by
  unfold State.memWrite; split <;> rfl
@[simp] theorem State.memWrite_z (s : State) (p : Addr) (v : Byte) : (s.memWrite p v).z = s.z := by
  unfold State.memWrite; split <;> rfl
@[simp] theorem State.memWrite_ir (s : State) (p : Addr) (v : Byte) : (s.memWrite p v).ir = s.ir := by
  unfold State.memWrite; split <;> rfl
@[simp] theorem State.memWrite_memMap (s : State) (p : Addr) (v : Byte) : (s.memWrite p v).memMap = s.memMap := by
  unfold State.memWrite; split <;> rfl
@[simp] theorem State.memWrite_portScript (s : State) (p : Addr) (v : Byte) : (s.memWrite p v).portScript = s.portScript := by
  unfold State.memWrite; split <;> rfl
@[simp] theorem State.memWrite_trace (s : State) (p : Addr) (v : Byte) : (s.memWrite p v).trace = .memWrite p v :: s.trace := by
  unfold State.memWrite; split <;> rfl
@[simp] theorem State.memWrite_clock (s : State) (p : Addr) (v : Byte) : (s.memWrite p v).clock = s.clock := by
  unfold State.memWrite; split <;> rfl
@[simp] theorem State.memWrite_kindAt (s : State) (p : Addr) (v : Byte) (q : Addr) :
    (s.memWrite p v).kindAt q = s.kindAt q := by
  unfold State.memWrite; split <;> rfl

/-! ### A write to memory does not look at A, R, Z or IP -/

theorem State.setA_memWrite (s : State) (x : Byte) (p : Addr) (v : Byte) :
    (s.setA x).memWrite p v = (s.memWrite p v).setA x := by
  unfold State.memWrite; rw [State.setA_kindAt]; cases s.kindAt p <;> rfl

theorem State.setR_memWrite (s : State) (x : Byte) (p : Addr) (v : Byte) :
    (s.setR x).memWrite p v = (s.memWrite p v).setR x := by
  unfold State.memWrite; rw [State.setR_kindAt]; cases s.kindAt p <;> rfl

theorem State.setZ_memWrite (s : State) (x : Bool) (p : Addr) (v : Byte) :
    (s.setZ x).memWrite p v = (s.memWrite p v).setZ x := by
  unfold State.memWrite; rw [State.setZ_kindAt]; cases s.kindAt p <;> rfl

theorem State.setIp_memWrite (s : State) (x : Addr) (p : Addr) (v : Byte) :
    (s.setIp x).memWrite p v = (s.memWrite p v).setIp x := by
  unfold State.memWrite; rw [State.setIp_kindAt]; cases s.kindAt p <;> rfl

/-! ### place -/

@[simp] theorem State.place_mem (s : State) (p : Addr) (v : Byte) : (s.place p v).mem = s.mem.write p.toNat v := rfl
@[simp] theorem State.place_ip (s : State) (p : Addr) (v : Byte) : (s.place p v).ip = s.ip := rfl

/-! ### What a read would give depends on memory, its map, the trace and the port script alone -/

@[simp] theorem State.setA_cell (s : State) (v : Byte) (q : Addr) : (s.setA v).cell q = s.cell q := rfl
@[simp] theorem State.setA_portByte (s : State) (v : Byte) (q : Addr) : (s.setA v).portByte q = s.portByte q := rfl
@[simp] theorem State.setR_cell (s : State) (v : Byte) (q : Addr) : (s.setR v).cell q = s.cell q := rfl
@[simp] theorem State.setR_portByte (s : State) (v : Byte) (q : Addr) : (s.setR v).portByte q = s.portByte q := rfl
@[simp] theorem State.setZ_cell (s : State) (v : Bool) (q : Addr) : (s.setZ v).cell q = s.cell q := rfl
@[simp] theorem State.setZ_portByte (s : State) (v : Bool) (q : Addr) : (s.setZ v).portByte q = s.portByte q := rfl
@[simp] theorem State.setIp_cell (s : State) (v : Addr) (q : Addr) : (s.setIp v).cell q = s.cell q := rfl
@[simp] theorem State.setIp_portByte (s : State) (v : Addr) (q : Addr) : (s.setIp v).portByte q = s.portByte q := rfl
@[simp] theorem State.setIr_cell (s : State) (v : Byte) (q : Addr) : (s.setIr v).cell q = s.cell q := rfl
@[simp] theorem State.setIr_portByte (s : State) (v : Byte) (q : Addr) : (s.setIr v).portByte q = s.portByte q := rfl
@[simp] theorem State.incIp_cell (s : State) (q : Addr) : s.incIp.cell q = s.cell q := rfl
@[simp] theorem State.incIp_portByte (s : State) (q : Addr) : s.incIp.portByte q = s.portByte q := rfl
@[simp] theorem State.spend_cell (s : State) (n : Nat) (q : Addr) : (s.spend n).cell q = s.cell q := rfl
@[simp] theorem State.spend_portByte (s : State) (n : Nat) (q : Addr) : (s.spend n).portByte q = s.portByte q := rfl

/-! ### Clock cycles can be counted last -/

theorem State.spend_setA (s : State) (k : Nat) (v : Byte) : (s.spend k).setA v = (s.setA v).spend k := rfl
theorem State.spend_setR (s : State) (k : Nat) (v : Byte) : (s.spend k).setR v = (s.setR v).spend k := rfl
theorem State.spend_setZ (s : State) (k : Nat) (v : Bool) : (s.spend k).setZ v = (s.setZ v).spend k := rfl
theorem State.spend_setIp (s : State) (k : Nat) (v : Addr) : (s.spend k).setIp v = (s.setIp v).spend k := rfl
theorem State.spend_setIr (s : State) (k : Nat) (v : Byte) : (s.spend k).setIr v = (s.setIr v).spend k := rfl
theorem State.spend_incIp (s : State) (k : Nat) : (s.spend k).incIp = s.incIp.spend k := rfl
theorem State.spend_spend (s : State) (j k : Nat) : (s.spend j).spend k = s.spend (j + k) := by
  simp only [State.spend, Nat.add_assoc]
theorem State.spend_memRead (s : State) (k : Nat) (p : Addr) :
    (s.spend k).memRead p = (s.cell p, (s.memRead p).2.spend k) := rfl
theorem State.spend_portRead (s : State) (k : Nat) (p : Addr) :
    (s.spend k).portRead p = (s.portByte p, (s.portRead p).2.spend k) := rfl
theorem State.spend_portWrite (s : State) (k : Nat) (p : Addr) (v : Byte) :
    (s.spend k).portWrite p v = (s.portWrite p v).spend k := rfl

theorem State.spend_memWrite (s : State) (k : Nat) (p : Addr) (v : Byte) :
    (s.spend k).memWrite p v = (s.memWrite p v).spend k := by
  unfold State.memWrite; rw [State.spend_kindAt]; cases s.kindAt p <;> rfl

end Sys2Proof.Machine
end

