-- ==== Sys2Proof/Laws/Ops.lean ====
section
/-! SUPPORT. For each shared operation, once, everything it can do. -/

namespace Sys2Proof.Machine

open Sys2Proof

/-! ### Reads -/

/-- Where something is fitted, a read gives what the cell holds. -/
theorem State.cell_of_fitted {s : State} {p : Addr} (h : s.kindAt p ≠ .absent) : s.cell p = s.mem.read p.toNat := by
  unfold State.cell; split <;> simp_all

/-- Two states with the same memory, map and trace give a read the same byte. -/
theorem State.cell_congr {s t : State} {p : Addr} (hm : t.mem = s.mem) (hk : t.memMap = s.memMap)
    (ht : t.trace = s.trace) : t.cell p = s.cell p := by
  simp [State.cell, State.kindAt, hm, hk, ht]

theorem State.portByte_of_script {s : State} {p : Addr} {v : Byte} {rest : List Byte} (h : s.portScript = v :: rest) :
    s.portByte p = v := by
  simp [State.portByte, h]

/-! ### The operand forms: a value, and the state in which it was read -/

@[simp] theorem operandDirect_eq (n : Byte) (s : State) :
    operandDirect n s = ((s.takeByte2 n).cell n, ((s.takeByte2 n).memRead n).2) := rfl

@[simp] theorem operandA_eq (s : State) : operandA s = (s.a, s) := rfl

@[simp] theorem operandR_eq (s : State) : operandR s = (s.r, s) := rfl

@[simp] theorem operandIndirect_eq (s : State) : operandIndirect s = (s.cell s.r, (s.memRead s.r).2) := rfl

@[simp] theorem operandImmediate_eq (n : Byte) (s : State) : operandImmediate n s = (n, s.takeByte2 n) := rfl

@[simp] theorem operandPortDirect_eq (n : Byte) (s : State) :
    operandPortDirect n s = ((s.takeByte2 n).portByte n, ((s.takeByte2 n).portRead n).2) := rfl

@[simp] theorem operandPortIndirect_eq (s : State) :
    operandPortIndirect s = (s.portByte s.r, (s.portRead s.r).2) := rfl

/-! ### The end of an instruction -/

@[simp] theorem State.complete_eq_next (s t : State) (figure : Nat) :
    s.complete figure = .next t ↔ t = s.spend (figure - 3) := by
  simp only [State.complete, fetchClocks, Host.Outcome.next.injEq]; exact eq_comm

/-! ### The shared meanings: each one answers a next state, and this one -/

theorem inTo_eq (o : Byte × State) (k : Nat) : inTo o k = .next ((o.2.setA o.1).spend (k - 3)) := rfl

theorem loadA_eq (o : Byte × State) (k : Nat) : loadA o k = .next ((o.2.setA o.1).spend (k - 3)) := rfl

theorem loadR_eq (o : Byte × State) (k : Nat) : loadR o k = .next ((o.2.setR o.1).spend (k - 3)) := rfl

theorem addTo_eq (o : Byte × State) (k : Nat) : addTo o k = .next ((o.2.setA (o.2.a + o.1)).spend (k - 3)) := rfl

theorem subFrom_eq (o : Byte × State) (k : Nat) : subFrom o k = .next ((o.2.setA (o.2.a - o.1)).spend (k - 3)) := rfl

theorem decTo_eq (o : Byte × State) (k : Nat) : decTo o k = .next ((o.2.setA (o.1 - 1#8)).spend (k - 3)) := rfl

theorem orTo_eq (o : Byte × State) (k : Nat) : orTo o k = .next ((o.2.setA (o.2.a ||| o.1)).spend (k - 3)) := rfl

theorem invTo_eq (o : Byte × State) (k : Nat) : invTo o k = .next ((o.2.setA (~~~o.1)).spend (k - 3)) := rfl

theorem shlTo_eq (o : Byte × State) (k : Nat) : shlTo o k = .next ((o.2.setA (shl8 o.1)).spend (k - 3)) := rfl

theorem compareWith_eq (o : Byte × State) (k : Nat) :
    compareWith o k = .next ((o.2.setZ (compareZ o.2.a o.1)).spend (k - 3)) := rfl

theorem storeDirect_eq (n v : Byte) (s : State) :
    storeDirect n v s = .next (((s.takeByte2 n).memWrite n v).spend 6) := rfl

theorem storeIndirect_eq (v : Byte) (s : State) : storeIndirect v s = .next ((s.memWrite s.r v).spend 4) := rfl

theorem jumpDirectIf_eq (taken : Bool) (n : Byte) (s : State) :
    jumpDirectIf taken n s = .next (if taken then ((s.readByte2 n).setIp n).spend 3 else s.incIp.spend 1) := by
  cases taken <;> rfl

theorem jumpRegisterIf_eq (taken : Bool) (s : State) :
    jumpRegisterIf taken s = .next (if taken then (s.setIp s.r).spend 1 else s.spend 1) := by
  cases taken <;> rfl

/-! ### The ALU -/

/-- The zero condition of A - v is equality. -/
theorem compareZ_eq_true {a v : Byte} : compareZ a v = true ↔ a = v := by
  simp [compareZ, zeroCondition, sub8, BitVec.sub_eq_iff_eq_add]

theorem shl8_eq (v : Byte) : shl8 v = v <<< 1 := by
  revert v; decide

/-! ### The step -/

/-- What a step that answers a next state has done: it decoded an instruction and ran its meaning. -/
theorem step_next {s t : State} (h : step s = .next t) :
    ∃ i rest, decode s.fetchBytes = .ok (i, rest) ∧ exec i s.fetchPhase = .next t := by
  unfold step at h
  split at h
  · exact ⟨_, _, ‹_›, h⟩
  · simp [raiseIllegalOpcode] at h

/-- What a step that faults has met: bytes that do not decode. -/
theorem step_fault {s : State} {f : Fault} (h : step s = .fault f) :
    (∃ e, decode s.fetchBytes = .error e) ∨ ∃ i, exec i s.fetchPhase = .fault f := by
  unfold step at h
  split at h
  · exact .inr ⟨_, h⟩
  · exact .inl ⟨_, ‹_›⟩

end Sys2Proof.Machine
end

