-- ==== Sys2Proof/Laws/PerInstr.lean ====
section
/-! SUPPORT. The statements for all instructions, one lemma per constructor. -/

namespace Sys2Proof.Laws

open Sys2Proof

/-- Every instruction is a tick of the opcode map with byte 2 where its mode asks for it (30_encoding.md R64, R67). -/
def FormIsWellFormed.Statement (i : Instr) : Prop := i.WellFormed

/-- The length of an instruction follows from its mode, and FETCH is one byte (30_encoding.md R64). -/
def LengthOfMode.Statement (i : Instr) : Prop :=
  i.length = match i.form with
    | .fetch => 1
    | .op _ m _ => if m.hasByte2 then 2 else 1

theorem FormIsWellFormed.fetch : FormIsWellFormed.Statement .fetch := rfl
theorem FormIsWellFormed.inAddress (n : Byte) : FormIsWellFormed.Statement (.inAddress n) := rfl
theorem FormIsWellFormed.inP : FormIsWellFormed.Statement .inP := rfl
theorem FormIsWellFormed.outAddress (n : Byte) : FormIsWellFormed.Statement (.outAddress n) := rfl
theorem FormIsWellFormed.outP : FormIsWellFormed.Statement .outP := rfl
theorem FormIsWellFormed.jmpAddress (n : Byte) : FormIsWellFormed.Statement (.jmpAddress n) := rfl
theorem FormIsWellFormed.jmpR : FormIsWellFormed.Statement .jmpR := rfl
theorem FormIsWellFormed.jnzAddress (n : Byte) : FormIsWellFormed.Statement (.jnzAddress n) := rfl
theorem FormIsWellFormed.jnzR : FormIsWellFormed.Statement .jnzR := rfl
theorem FormIsWellFormed.jzAddress (n : Byte) : FormIsWellFormed.Statement (.jzAddress n) := rfl
theorem FormIsWellFormed.jzR : FormIsWellFormed.Statement .jzR := rfl
theorem FormIsWellFormed.cmpAddress (n : Byte) : FormIsWellFormed.Statement (.cmpAddress n) := rfl
theorem FormIsWellFormed.cmpA : FormIsWellFormed.Statement .cmpA := rfl
theorem FormIsWellFormed.cmpR : FormIsWellFormed.Statement .cmpR := rfl
theorem FormIsWellFormed.cmpM : FormIsWellFormed.Statement .cmpM := rfl
theorem FormIsWellFormed.cmpImm (n : Byte) : FormIsWellFormed.Statement (.cmpImm n) := rfl
theorem FormIsWellFormed.ldaAddress (n : Byte) : FormIsWellFormed.Statement (.ldaAddress n) := rfl
theorem FormIsWellFormed.ldaA : FormIsWellFormed.Statement .ldaA := rfl
theorem FormIsWellFormed.ldaR : FormIsWellFormed.Statement .ldaR := rfl
theorem FormIsWellFormed.ldaM : FormIsWellFormed.Statement .ldaM := rfl
theorem FormIsWellFormed.ldaImm (n : Byte) : FormIsWellFormed.Statement (.ldaImm n) := rfl
theorem FormIsWellFormed.ldrAddress (n : Byte) : FormIsWellFormed.Statement (.ldrAddress n) := rfl
theorem FormIsWellFormed.ldrA : FormIsWellFormed.Statement .ldrA := rfl
theorem FormIsWellFormed.ldrR : FormIsWellFormed.Statement .ldrR := rfl
theorem FormIsWellFormed.ldrM : FormIsWellFormed.Statement .ldrM := rfl
theorem FormIsWellFormed.ldrImm (n : Byte) : FormIsWellFormed.Statement (.ldrImm n) := rfl
theorem FormIsWellFormed.staAddress (n : Byte) : FormIsWellFormed.Statement (.staAddress n) := rfl
theorem FormIsWellFormed.staM : FormIsWellFormed.Statement .staM := rfl
theorem FormIsWellFormed.strAddress (n : Byte) : FormIsWellFormed.Statement (.strAddress n) := rfl
theorem FormIsWellFormed.strM : FormIsWellFormed.Statement .strM := rfl
theorem FormIsWellFormed.addAddress (n : Byte) : FormIsWellFormed.Statement (.addAddress n) := rfl
theorem FormIsWellFormed.addA : FormIsWellFormed.Statement .addA := rfl
theorem FormIsWellFormed.addR : FormIsWellFormed.Statement .addR := rfl
theorem FormIsWellFormed.addM : FormIsWellFormed.Statement .addM := rfl
theorem FormIsWellFormed.addImm (n : Byte) : FormIsWellFormed.Statement (.addImm n) := rfl
theorem FormIsWellFormed.subAddress (n : Byte) : FormIsWellFormed.Statement (.subAddress n) := rfl
theorem FormIsWellFormed.subA : FormIsWellFormed.Statement .subA := rfl
theorem FormIsWellFormed.subR : FormIsWellFormed.Statement .subR := rfl
theorem FormIsWellFormed.subM : FormIsWellFormed.Statement .subM := rfl
theorem FormIsWellFormed.subImm (n : Byte) : FormIsWellFormed.Statement (.subImm n) := rfl
theorem FormIsWellFormed.decAddress (n : Byte) : FormIsWellFormed.Statement (.decAddress n) := rfl
theorem FormIsWellFormed.decA : FormIsWellFormed.Statement .decA := rfl
theorem FormIsWellFormed.decR : FormIsWellFormed.Statement .decR := rfl
theorem FormIsWellFormed.decM : FormIsWellFormed.Statement .decM := rfl
theorem FormIsWellFormed.decImm (n : Byte) : FormIsWellFormed.Statement (.decImm n) := rfl
theorem FormIsWellFormed.orAddress (n : Byte) : FormIsWellFormed.Statement (.orAddress n) := rfl
theorem FormIsWellFormed.orA : FormIsWellFormed.Statement .orA := rfl
theorem FormIsWellFormed.orR : FormIsWellFormed.Statement .orR := rfl
theorem FormIsWellFormed.orM : FormIsWellFormed.Statement .orM := rfl
theorem FormIsWellFormed.orImm (n : Byte) : FormIsWellFormed.Statement (.orImm n) := rfl
theorem FormIsWellFormed.invAddress (n : Byte) : FormIsWellFormed.Statement (.invAddress n) := rfl
theorem FormIsWellFormed.invA : FormIsWellFormed.Statement .invA := rfl
theorem FormIsWellFormed.invR : FormIsWellFormed.Statement .invR := rfl
theorem FormIsWellFormed.invM : FormIsWellFormed.Statement .invM := rfl
theorem FormIsWellFormed.invImm (n : Byte) : FormIsWellFormed.Statement (.invImm n) := rfl
theorem FormIsWellFormed.shlAddress (n : Byte) : FormIsWellFormed.Statement (.shlAddress n) := rfl
theorem FormIsWellFormed.shlA : FormIsWellFormed.Statement .shlA := rfl
theorem FormIsWellFormed.shlR : FormIsWellFormed.Statement .shlR := rfl
theorem FormIsWellFormed.shlM : FormIsWellFormed.Statement .shlM := rfl
theorem FormIsWellFormed.shlImm (n : Byte) : FormIsWellFormed.Statement (.shlImm n) := rfl

theorem LengthOfMode.fetch : LengthOfMode.Statement .fetch := rfl
theorem LengthOfMode.inAddress (n : Byte) : LengthOfMode.Statement (.inAddress n) := rfl
theorem LengthOfMode.inP : LengthOfMode.Statement .inP := rfl
theorem LengthOfMode.outAddress (n : Byte) : LengthOfMode.Statement (.outAddress n) := rfl
theorem LengthOfMode.outP : LengthOfMode.Statement .outP := rfl
theorem LengthOfMode.jmpAddress (n : Byte) : LengthOfMode.Statement (.jmpAddress n) := rfl
theorem LengthOfMode.jmpR : LengthOfMode.Statement .jmpR := rfl
theorem LengthOfMode.jnzAddress (n : Byte) : LengthOfMode.Statement (.jnzAddress n) := rfl
theorem LengthOfMode.jnzR : LengthOfMode.Statement .jnzR := rfl
theorem LengthOfMode.jzAddress (n : Byte) : LengthOfMode.Statement (.jzAddress n) := rfl
theorem LengthOfMode.jzR : LengthOfMode.Statement .jzR := rfl
theorem LengthOfMode.cmpAddress (n : Byte) : LengthOfMode.Statement (.cmpAddress n) := rfl
theorem LengthOfMode.cmpA : LengthOfMode.Statement .cmpA := rfl
theorem LengthOfMode.cmpR : LengthOfMode.Statement .cmpR := rfl
theorem LengthOfMode.cmpM : LengthOfMode.Statement .cmpM := rfl
theorem LengthOfMode.cmpImm (n : Byte) : LengthOfMode.Statement (.cmpImm n) := rfl
theorem LengthOfMode.ldaAddress (n : Byte) : LengthOfMode.Statement (.ldaAddress n) := rfl
theorem LengthOfMode.ldaA : LengthOfMode.Statement .ldaA := rfl
theorem LengthOfMode.ldaR : LengthOfMode.Statement .ldaR := rfl
theorem LengthOfMode.ldaM : LengthOfMode.Statement .ldaM := rfl
theorem LengthOfMode.ldaImm (n : Byte) : LengthOfMode.Statement (.ldaImm n) := rfl
theorem LengthOfMode.ldrAddress (n : Byte) : LengthOfMode.Statement (.ldrAddress n) := rfl
theorem LengthOfMode.ldrA : LengthOfMode.Statement .ldrA := rfl
theorem LengthOfMode.ldrR : LengthOfMode.Statement .ldrR := rfl
theorem LengthOfMode.ldrM : LengthOfMode.Statement .ldrM := rfl
theorem LengthOfMode.ldrImm (n : Byte) : LengthOfMode.Statement (.ldrImm n) := rfl
theorem LengthOfMode.staAddress (n : Byte) : LengthOfMode.Statement (.staAddress n) := rfl
theorem LengthOfMode.staM : LengthOfMode.Statement .staM := rfl
theorem LengthOfMode.strAddress (n : Byte) : LengthOfMode.Statement (.strAddress n) := rfl
theorem LengthOfMode.strM : LengthOfMode.Statement .strM := rfl
theorem LengthOfMode.addAddress (n : Byte) : LengthOfMode.Statement (.addAddress n) := rfl
theorem LengthOfMode.addA : LengthOfMode.Statement .addA := rfl
theorem LengthOfMode.addR : LengthOfMode.Statement .addR := rfl
theorem LengthOfMode.addM : LengthOfMode.Statement .addM := rfl
theorem LengthOfMode.addImm (n : Byte) : LengthOfMode.Statement (.addImm n) := rfl
theorem LengthOfMode.subAddress (n : Byte) : LengthOfMode.Statement (.subAddress n) := rfl
theorem LengthOfMode.subA : LengthOfMode.Statement .subA := rfl
theorem LengthOfMode.subR : LengthOfMode.Statement .subR := rfl
theorem LengthOfMode.subM : LengthOfMode.Statement .subM := rfl
theorem LengthOfMode.subImm (n : Byte) : LengthOfMode.Statement (.subImm n) := rfl
theorem LengthOfMode.decAddress (n : Byte) : LengthOfMode.Statement (.decAddress n) := rfl
theorem LengthOfMode.decA : LengthOfMode.Statement .decA := rfl
theorem LengthOfMode.decR : LengthOfMode.Statement .decR := rfl
theorem LengthOfMode.decM : LengthOfMode.Statement .decM := rfl
theorem LengthOfMode.decImm (n : Byte) : LengthOfMode.Statement (.decImm n) := rfl
theorem LengthOfMode.orAddress (n : Byte) : LengthOfMode.Statement (.orAddress n) := rfl
theorem LengthOfMode.orA : LengthOfMode.Statement .orA := rfl
theorem LengthOfMode.orR : LengthOfMode.Statement .orR := rfl
theorem LengthOfMode.orM : LengthOfMode.Statement .orM := rfl
theorem LengthOfMode.orImm (n : Byte) : LengthOfMode.Statement (.orImm n) := rfl
theorem LengthOfMode.invAddress (n : Byte) : LengthOfMode.Statement (.invAddress n) := rfl
theorem LengthOfMode.invA : LengthOfMode.Statement .invA := rfl
theorem LengthOfMode.invR : LengthOfMode.Statement .invR := rfl
theorem LengthOfMode.invM : LengthOfMode.Statement .invM := rfl
theorem LengthOfMode.invImm (n : Byte) : LengthOfMode.Statement (.invImm n) := rfl
theorem LengthOfMode.shlAddress (n : Byte) : LengthOfMode.Statement (.shlAddress n) := rfl
theorem LengthOfMode.shlA : LengthOfMode.Statement .shlA := rfl
theorem LengthOfMode.shlR : LengthOfMode.Statement .shlR := rfl
theorem LengthOfMode.shlM : LengthOfMode.Statement .shlM := rfl
theorem LengthOfMode.shlImm (n : Byte) : LengthOfMode.Statement (.shlImm n) := rfl

end Sys2Proof.Laws
end

