-- ==== Sys2Proof/Machine/Assembly.lean ====
section
/-! DEFINITION. P8 assembly text, one spelling per instruction (30_encoding.md R76, R77; decision D11; log entry 21). -/

namespace Sys2Proof.Machine

open Sys2Proof

/-- A hexadecimal digit, capitals as in the source. -/
def hexDigit (n : Nat) : Char := if n < 10 then Char.ofNat (48 + n) else Char.ofNat (55 + n)

/-- Two hexadecimal digits and the suffix h. -/
def hexByte (v : Byte) : List Char := [hexDigit (v.toNat / 16), hexDigit (v.toNat % 16), 'h']

/-- The mnemonics (30_encoding.md R62). -/
def operationName : Operation → List Char
  | .inp => ['I', 'N']
  | .out => ['O', 'U', 'T']
  | .jmp => ['J', 'M', 'P']
  | .jnz => ['J', 'N', 'Z']
  | .jz => ['J', 'Z']
  | .cmp => ['C', 'M', 'P']
  | .lda => ['L', 'D', 'A']
  | .ldr => ['L', 'D', 'R']
  | .sta => ['S', 'T', 'A']
  | .str => ['S', 'T', 'R']
  | .add => ['A', 'D', 'D']
  | .sub => ['S', 'U', 'B']
  | .dec => ['D', 'E', 'C']
  | .or => ['O', 'R']
  | .inv => ['I', 'N', 'V']
  | .shl => ['S', 'H', 'L']

/-- The operand spellings (30_encoding.md R76): a number for direct mode, A, R, M or P for indirect mode, and the letter
I before an immediate number. -/
def operandText (o : Operation) : Mode → Option Byte → List Char
  | .direct, some n => hexByte n
  | .immediate, some n => ['I', ' '] ++ hexByte n
  | .regA, _ => ['A']
  | .regR, _ => ['R']
  | .indirect, _ => if o = .inp ∨ o = .out then ['P'] else ['M']
  | .direct, none | .immediate, none => []

/-- The assembly text of an instruction. -/
def assembly (i : Instr) : List Char :=
  match i.form with
  | .fetch => ['F', 'E', 'T', 'C', 'H']
  | .op o m byte2 => operationName o ++ [' '] ++ operandText o m byte2

end Sys2Proof.Machine
end

