-- ==== Sys2Proof/Tests/Slice0.lean ====
section
/-! SUPPORT. Tests of the model. Their expected results are the spec's: the words of 30_encoding.md R68, the source's own
examples S01 to S59 and the derived vectors V-… of 95_test_vectors.md. After them, for every statement with hypotheses,
states and operands that meet them. -/

namespace Sys2Proof.Tests

open Sys2Proof Sys2Proof.Machine

/-! ### Ill-formed terms, each refused by one check of WellFormed -/

/-- An operation with a mode the opcode map has no tick for: `STA A`, `JMP M`, `IN I data`, `OUT A`, `STR I data`. -/
theorem test_wf_unlisted_mode :
    (Form.op .sta .regA none).wf = false ∧ (Form.op .jmp .indirect none).wf = false ∧
    (Form.op .inp .immediate (some 0x10#8)).wf = false ∧ (Form.op .out .regA none).wf = false ∧
    (Form.op .str .immediate (some 0x10#8)).wf = false := by decide

/-- A direct or immediate mode without its byte 2. -/
theorem test_wf_missing_byte2 :
    (Form.op .add .direct none).wf = false ∧ (Form.op .sub .immediate none).wf = false := by decide

/-- A register or indirect mode with a byte 2. -/
theorem test_wf_superfluous_byte2 :
    (Form.op .add .regA (some 0x10#8)).wf = false ∧ (Form.op .inv .regR (some 0x10#8)).wf = false ∧
    (Form.op .lda .indirect (some 0x10#8)).wf = false := by decide

/-! ### Every constructor's word, bit by bit (30_encoding.md R62, R63, R68) -/

theorem test_decode_fetch : decode [0b00000000#8] = .ok (.fetch, []) := by decide

theorem test_decode_in :
    decode [0b00001000#8, 0x5A#8] = .ok (.inAddress 0x5A#8, []) ∧
    decode [0b00001100#8] = .ok (.inP, []) := by decide

theorem test_decode_out :
    decode [0b00010000#8, 0x5A#8] = .ok (.outAddress 0x5A#8, []) ∧
    decode [0b00010100#8] = .ok (.outP, []) := by decide

theorem test_decode_jmp :
    decode [0b00100000#8, 0x5A#8] = .ok (.jmpAddress 0x5A#8, []) ∧
    decode [0b00100011#8] = .ok (.jmpR, []) := by decide

theorem test_decode_jnz :
    decode [0b00101000#8, 0x5A#8] = .ok (.jnzAddress 0x5A#8, []) ∧
    decode [0b00101011#8] = .ok (.jnzR, []) := by decide

theorem test_decode_jz :
    decode [0b00110000#8, 0x5A#8] = .ok (.jzAddress 0x5A#8, []) ∧
    decode [0b00110011#8] = .ok (.jzR, []) := by decide

theorem test_decode_cmp :
    decode [0b00111000#8, 0x5A#8] = .ok (.cmpAddress 0x5A#8, []) ∧
    decode [0b00111010#8] = .ok (.cmpA, []) ∧
    decode [0b00111011#8] = .ok (.cmpR, []) ∧
    decode [0b00111100#8] = .ok (.cmpM, []) ∧
    decode [0b00111110#8, 0x5A#8] = .ok (.cmpImm 0x5A#8, []) := by decide

theorem test_decode_lda :
    decode [0b01000000#8, 0x5A#8] = .ok (.ldaAddress 0x5A#8, []) ∧
    decode [0b01000010#8] = .ok (.ldaA, []) ∧
    decode [0b01000011#8] = .ok (.ldaR, []) ∧
    decode [0b01000100#8] = .ok (.ldaM, []) ∧
    decode [0b01000110#8, 0x5A#8] = .ok (.ldaImm 0x5A#8, []) := by decide

theorem test_decode_ldr :
    decode [0b01001000#8, 0x5A#8] = .ok (.ldrAddress 0x5A#8, []) ∧
    decode [0b01001010#8] = .ok (.ldrA, []) ∧
    decode [0b01001011#8] = .ok (.ldrR, []) ∧
    decode [0b01001100#8] = .ok (.ldrM, []) ∧
    decode [0b01001110#8, 0x5A#8] = .ok (.ldrImm 0x5A#8, []) := by decide

theorem test_decode_sta :
    decode [0b01010000#8, 0x5A#8] = .ok (.staAddress 0x5A#8, []) ∧
    decode [0b01010100#8] = .ok (.staM, []) := by decide

theorem test_decode_str :
    decode [0b01011000#8, 0x5A#8] = .ok (.strAddress 0x5A#8, []) ∧
    decode [0b01011100#8] = .ok (.strM, []) := by decide

theorem test_decode_add :
    decode [0b01100000#8, 0x5A#8] = .ok (.addAddress 0x5A#8, []) ∧
    decode [0b01100010#8] = .ok (.addA, []) ∧
    decode [0b01100011#8] = .ok (.addR, []) ∧
    decode [0b01100100#8] = .ok (.addM, []) ∧
    decode [0b01100110#8, 0x5A#8] = .ok (.addImm 0x5A#8, []) := by decide

theorem test_decode_sub :
    decode [0b01101000#8, 0x5A#8] = .ok (.subAddress 0x5A#8, []) ∧
    decode [0b01101010#8] = .ok (.subA, []) ∧
    decode [0b01101011#8] = .ok (.subR, []) ∧
    decode [0b01101100#8] = .ok (.subM, []) ∧
    decode [0b01101110#8, 0x5A#8] = .ok (.subImm 0x5A#8, []) := by decide

theorem test_decode_dec :
    decode [0b01110000#8, 0x5A#8] = .ok (.decAddress 0x5A#8, []) ∧
    decode [0b01110010#8] = .ok (.decA, []) ∧
    decode [0b01110011#8] = .ok (.decR, []) ∧
    decode [0b01110100#8] = .ok (.decM, []) ∧
    decode [0b01110110#8, 0x5A#8] = .ok (.decImm 0x5A#8, []) := by decide

theorem test_decode_or :
    decode [0b10000000#8, 0x5A#8] = .ok (.orAddress 0x5A#8, []) ∧
    decode [0b10000010#8] = .ok (.orA, []) ∧
    decode [0b10000011#8] = .ok (.orR, []) ∧
    decode [0b10000100#8] = .ok (.orM, []) ∧
    decode [0b10000110#8, 0x5A#8] = .ok (.orImm 0x5A#8, []) := by decide

theorem test_decode_inv :
    decode [0b10001000#8, 0x5A#8] = .ok (.invAddress 0x5A#8, []) ∧
    decode [0b10001010#8] = .ok (.invA, []) ∧
    decode [0b10001011#8] = .ok (.invR, []) ∧
    decode [0b10001100#8] = .ok (.invM, []) ∧
    decode [0b10001110#8, 0x5A#8] = .ok (.invImm 0x5A#8, []) := by decide

theorem test_decode_shl :
    decode [0b10010000#8, 0x5A#8] = .ok (.shlAddress 0x5A#8, []) ∧
    decode [0b10010010#8] = .ok (.shlA, []) ∧
    decode [0b10010011#8] = .ok (.shlR, []) ∧
    decode [0b10010100#8] = .ok (.shlM, []) ∧
    decode [0b10010110#8, 0x5A#8] = .ok (.shlImm 0x5A#8, []) := by decide

/-- Undefined first bytes (30_encoding.md R69): `52h`, which would be STA A, `24h`, `6Dh`, `FFh` and `18h`. -/
theorem test_decode_undefined :
    decode [0x52#8, 0x00#8] = .error (.undefinedByte 0x52#8) ∧ decode [0x24#8, 0x00#8] = .error (.undefinedByte 0x24#8) ∧
    decode [0x6D#8, 0x00#8] = .error (.undefinedByte 0x6D#8) ∧ decode [0xFF#8, 0x00#8] = .error (.undefinedByte 0xFF#8) ∧
    decode [0x18#8, 0x20#8] = .error (.undefinedByte 0x18#8) := by decide

/-- A two-byte instruction without its byte 2. -/
theorem test_decode_truncated : decode [0x40#8] = .error .truncated := by decide

/-- Table words, numbered as spec/opcode_table.json numbers them: byte 2 in bits 15..8. -/
theorem test_decodeTableWord :
    decodeTableWord 16 0x1040 = some (.ldaAddress 0x10#8) ∧ decodeTableWord 8 0x8A = some .invA ∧
    decodeTableWord 8 0x40 = some (.ldaAddress 0x00#8) ∧ decodeTableWord 8 0x01 = none := by decide

/-- Canonical assembly text (30_encoding.md R76, R77): `SUB I 0Ah`, `IN P`, `STR M`. -/
theorem test_assembly :
    assembly (.subImm 0x0A#8) = ['S', 'U', 'B', ' ', 'I', ' ', '0', 'A', 'h'] ∧
    assembly .inP = ['I', 'N', ' ', 'P'] ∧ assembly .strM = ['S', 'T', 'R', ' ', 'M'] := by decide

/-! ### One step -/

/-- The state with the bytes `vs` in memory from address `p` on. -/
def placeAll (s : State) (p : Addr) : List Byte → State
  | [] => s
  | v :: vs => placeAll (s.place p v) (p + 1#8) vs

/-- A state about to run the bytes `code` at IP. -/
def start (ip : Addr) (a r : Byte) (z : Bool) (code : List Byte) : State :=
  placeAll (State.afterReset { resetIp := ip, a := a, r := r, z := z, ir := 0xEE#8 }) ip code

/-- The state a step answers, if it answers one. -/
def endOf : Result → Option State
  | .next t => some t
  | .fault _ | .refused _ => none

/-- A, R, Z and IP. -/
def regs (t : State) : Byte × Byte × Bool × Addr := (t.a, t.r, t.z, t.ip)

/-- The accesses of the run so far, oldest first, and its clock cycles. -/
def acts (t : State) : List Event × Nat := (t.trace.reverse, t.clock)

/-- The state that is left when the step from `s` answers a next state, and `s` otherwise. -/
def afterStep (s : State) : State := (endOf (step s)).getD s

/-- The same for one instruction. -/
def afterExec (i : Instr) (s : State) : State := (endOf (exec i s)).getD s

/-- S01: FETCH reads 54h at 06h. -/
theorem test_S01_fetch : ((start 0x06#8 0xA5#8 0x5A#8 false [0x54#8]).fetchPhase.ir,
    (start 0x06#8 0xA5#8 0x5A#8 false [0x54#8]).fetchPhase.ip) = (0x54#8, 0x07#8) := by decide

/-- V-F2: 00h at FFh: IP wraps to 00h. -/
theorem test_VF2_fetch :
    (endOf (step (start 0xFF#8 0x12#8 0x34#8 false [0x00#8]))).map
      (fun t => (regs t, acts t)) =
    some ((0x12#8, 0x34#8, false, 0x00#8),
      ([.memRead 0xFF#8 0x00#8], 3)) := by decide

/-- The source's example S17. -/
theorem test_S17_inAddress :
    (endOf (step ({ start 0x00#8 0x06#8 0x5A#8 false [0x08#8, 0x10#8] with portScript := [0x04#8] }))).map
      (fun t => (t.a, t.ip)) = some (0x04#8, 0x02#8) := by decide

/-- The source's example S18. -/
theorem test_S18_inP :
    (endOf (step ({ start 0x00#8 0x06#8 0x10#8 false [0x0C#8] with portScript := [0x04#8] }))).map
      (fun t => (t.a, t.ip)) = some (0x04#8, 0x01#8) := by decide

/-- V-IO2: `IN P` with R = FFh reads port FFh, not memory. -/
theorem test_VIO2_inP :
    (endOf (step ({ (start 0x00#8 0x06#8 0xFF#8 false [0x0C#8]).place 0xFF#8 0x55#8 with portScript := [0xC3#8] }))).map
      (fun t => (regs t, acts t)) =
    some ((0xC3#8, 0xFF#8, false, 0x01#8),
      ([.memRead 0x00#8 0x0C#8, .portRead 0xFF#8 0xC3#8], 7)) := by decide

/-- The source's example S45. -/
theorem test_S45_outAddress :
    (endOf (step (start 0x00#8 0x06#8 0x5A#8 false [0x10#8, 0x10#8]))).map
      (fun t => (t.trace.head?, t.ip)) = some (some (.portWrite 0x10#8 0x06#8), 0x02#8) := by decide

/-- V-IO3: `OUT 10h` writes the port, not MEM[10h]. -/
theorem test_VIO3_outAddress :
    (endOf (step ((start 0x00#8 0x06#8 0x5A#8 true [0x10#8, 0x10#8]).place 0x10#8 0x77#8))).map
      (fun t => (regs t, acts t)) =
    some ((0x06#8, 0x5A#8, true, 0x02#8),
      ([.memRead 0x00#8 0x10#8, .memRead 0x01#8 0x10#8, .portWrite 0x10#8 0x06#8], 9)) := by decide

/-- The source's example S46. -/
theorem test_S46_outP :
    (endOf (step (start 0x00#8 0x06#8 0x10#8 false [0x14#8]))).map
      (fun t => (t.trace.head?, t.ip)) = some (some (.portWrite 0x10#8 0x06#8), 0x01#8) := by decide

/-- V-IO4: `OUT P` with R = 00h, A = FFh: port 00h, although MEM[00h] holds the opcode. -/
theorem test_VIO4_outP :
    (endOf (step (start 0x00#8 0xFF#8 0x00#8 false [0x14#8]))).map
      (fun t => (regs t, acts t)) =
    some ((0xFF#8, 0x00#8, false, 0x01#8),
      ([.memRead 0x00#8 0x14#8, .portWrite 0x00#8 0xFF#8], 7)) := by decide

/-- The source's example S24, corrected (conflict C2). -/
theorem test_S24_jmpAddress :
    (endOf (step ((start 0x00#8 0xA5#8 0x5A#8 false [0x20#8, 0x10#8]).place 0x10#8 0x04#8))).map
      (fun t => (t.ip)) = some (0x10#8) := by decide

/-- V-J3: `JMP` whose byte 1 is at FFh takes its target from 00h. -/
theorem test_VJ3_jmpAddress :
    (endOf (step (start 0xFF#8 0xA5#8 0x5A#8 false [0x20#8, 0x42#8]))).map
      (fun t => (regs t, acts t)) =
    some ((0xA5#8, 0x5A#8, false, 0x42#8),
      ([.memRead 0xFF#8 0x20#8, .memRead 0x00#8 0x42#8], 6)) := by decide

/-- The source's example S25. -/
theorem test_S25_jmpR :
    (endOf (step (start 0x00#8 0xA5#8 0x10#8 false [0x23#8]))).map
      (fun t => (t.ip)) = some (0x10#8) := by decide

/-- V-J11: `JMP R` at 40h with R = 40h: halted state. -/
theorem test_VJ11_jmpR :
    (endOf (step (start 0x40#8 0xA5#8 0x40#8 false [0x23#8]))).map
      (fun t => (regs t, acts t)) =
    some ((0xA5#8, 0x40#8, false, 0x40#8),
      ([.memRead 0x40#8 0x23#8], 4)) := by decide

/-- The source's example S26. -/
theorem test_S26_jnzAddress :
    (endOf (step (start 0x00#8 0xA5#8 0x5A#8 false [0x28#8, 0x10#8]))).map
      (fun t => (t.ip)) = some (0x10#8) := by decide

/-- V-J4: `JNZ 10h` not taken (Z = 1): byte 2 not read, IP + 2, 4 clocks. -/
theorem test_VJ4_jnzAddress :
    (endOf (step (start 0x00#8 0xA5#8 0x5A#8 true [0x28#8, 0x10#8]))).map
      (fun t => (regs t, acts t)) =
    some ((0xA5#8, 0x5A#8, true, 0x02#8),
      ([.memRead 0x00#8 0x28#8], 4)) := by decide

/-- The source's example S27. -/
theorem test_S27_jnzR :
    (endOf (step (start 0x00#8 0xA5#8 0x10#8 false [0x2B#8]))).map
      (fun t => (t.ip)) = some (0x10#8) := by decide

/-- V-J9: `JNZ R` not taken (Z = 1): IP + 1 only. -/
theorem test_VJ9_jnzR :
    (endOf (step (start 0x00#8 0xA5#8 0x10#8 true [0x2B#8]))).map
      (fun t => (regs t, acts t)) =
    some ((0xA5#8, 0x10#8, true, 0x01#8),
      ([.memRead 0x00#8 0x2B#8], 4)) := by decide

/-- The source's example S28. -/
theorem test_S28_jzAddress :
    (endOf (step (start 0x00#8 0xA5#8 0x5A#8 true [0x30#8, 0x10#8]))).map
      (fun t => (t.ip)) = some (0x10#8) := by decide

/-- V-J7: `JZ 10h` not taken (Z = 0). -/
theorem test_VJ7_jzAddress :
    (endOf (step (start 0x00#8 0xA5#8 0x5A#8 false [0x30#8, 0x10#8]))).map
      (fun t => (regs t, acts t)) =
    some ((0xA5#8, 0x5A#8, false, 0x02#8),
      ([.memRead 0x00#8 0x30#8], 4)) := by decide

/-- The source's example S29. -/
theorem test_S29_jzR :
    (endOf (step (start 0x00#8 0xA5#8 0x10#8 true [0x33#8]))).map
      (fun t => (t.ip)) = some (0x10#8) := by decide

/-- V-J10: `JZ R` not taken (Z = 0). -/
theorem test_VJ10_jzR :
    (endOf (step (start 0x00#8 0xA5#8 0x10#8 false [0x33#8]))).map
      (fun t => (regs t, acts t)) =
    some ((0xA5#8, 0x10#8, false, 0x01#8),
      ([.memRead 0x00#8 0x33#8], 4)) := by decide

/-- The source's example S07. -/
theorem test_S07_cmpAddress :
    (endOf (step ((start 0x00#8 0x06#8 0x5A#8 false [0x38#8, 0x10#8]).place 0x10#8 0x06#8))).map
      (fun t => (t.a, t.z, t.ip)) = some (0x06#8, true, 0x02#8) := by decide

/-- V-C1: `CMP 10h` unequal clears Z. -/
theorem test_VC1_cmpAddress :
    (endOf (step ((start 0x00#8 0x06#8 0x5A#8 true [0x38#8, 0x10#8]).place 0x10#8 0x07#8))).map
      (fun t => (regs t, acts t)) =
    some ((0x06#8, 0x5A#8, false, 0x02#8),
      ([.memRead 0x00#8 0x38#8, .memRead 0x01#8 0x10#8, .memRead 0x10#8 0x07#8], 9)) := by decide

/-- The source's example S08. -/
theorem test_S08_cmpA :
    (endOf (step (start 0x00#8 0x06#8 0x5A#8 false [0x3A#8]))).map
      (fun t => (t.a, t.z, t.ip)) = some (0x06#8, true, 0x01#8) := by decide

/-- V-C4: `CMP A` sets Z whatever A is. -/
theorem test_VC4_cmpA :
    (endOf (step (start 0x00#8 0xFF#8 0x5A#8 false [0x3A#8]))).map
      (fun t => (regs t, acts t)) =
    some ((0xFF#8, 0x5A#8, true, 0x01#8),
      ([.memRead 0x00#8 0x3A#8], 4)) := by decide

/-- The source's example S09. -/
theorem test_S09_cmpR :
    (endOf (step (start 0x00#8 0x06#8 0x06#8 false [0x3B#8]))).map
      (fun t => (t.a, t.r, t.z, t.ip)) = some (0x06#8, 0x06#8, true, 0x01#8) := by decide

/-- V-C2: `CMP R`, A < R: Z = 0, no ordering information. -/
theorem test_VC2_cmpR :
    (endOf (step (start 0x00#8 0x04#8 0x06#8 true [0x3B#8]))).map
      (fun t => (regs t, acts t)) =
    some ((0x04#8, 0x06#8, false, 0x01#8),
      ([.memRead 0x00#8 0x3B#8], 4)) := by decide

/-- The source's example S10. -/
theorem test_S10_cmpM :
    (endOf (step ((start 0x00#8 0x06#8 0x10#8 false [0x3C#8]).place 0x10#8 0x06#8))).map
      (fun t => (t.a, t.z, t.ip)) = some (0x06#8, true, 0x01#8) := by decide

/-- V-C5: `CMP M` with R = 00h compares A with the opcode byte itself (3Ch). -/
theorem test_VC5_cmpM :
    (endOf (step (start 0x00#8 0x3C#8 0x00#8 false [0x3C#8]))).map
      (fun t => (regs t, acts t)) =
    some ((0x3C#8, 0x00#8, true, 0x01#8),
      ([.memRead 0x00#8 0x3C#8, .memRead 0x00#8 0x3C#8], 7)) := by decide

/-- The source's example S11. -/
theorem test_S11_cmpImm :
    (endOf (step (start 0x00#8 0x06#8 0x5A#8 false [0x3E#8, 0x06#8]))).map
      (fun t => (t.a, t.z, t.ip)) = some (0x06#8, true, 0x02#8) := by decide

/-- V-C9: `CMP I FFh`, A = 00h: Z = 0 (the difference is 01h modulo 256, not 0). -/
theorem test_VC9_cmpImm :
    (endOf (step (start 0x00#8 0x00#8 0x5A#8 true [0x3E#8, 0xFF#8]))).map
      (fun t => (regs t, acts t)) =
    some ((0x00#8, 0x5A#8, false, 0x02#8),
      ([.memRead 0x00#8 0x3E#8, .memRead 0x01#8 0xFF#8], 6)) := by decide

/-- The source's example S30. -/
theorem test_S30_ldaAddress :
    (endOf (step ((start 0x00#8 0x06#8 0x5A#8 false [0x40#8, 0x10#8]).place 0x10#8 0x04#8))).map
      (fun t => (t.a, t.ip)) = some (0x04#8, 0x02#8) := by decide

/-- V-L1: `LDA 01h` at 00h: the operand cell is the instruction's own byte 2. -/
theorem test_VL1_ldaAddress :
    (endOf (step (start 0x00#8 0x06#8 0x5A#8 true [0x40#8, 0x01#8]))).map
      (fun t => (regs t, acts t)) =
    some ((0x01#8, 0x5A#8, true, 0x02#8),
      ([.memRead 0x00#8 0x40#8, .memRead 0x01#8 0x01#8, .memRead 0x01#8 0x01#8], 9)) := by decide

/-- The source's example S31. -/
theorem test_S31_ldaA :
    (endOf (step (start 0x00#8 0x06#8 0x5A#8 false [0x42#8]))).map
      (fun t => (t.a, t.ip)) = some (0x06#8, 0x01#8) := by decide

/-- The source's example S32. -/
theorem test_S32_ldaR :
    (endOf (step (start 0x00#8 0x06#8 0x04#8 false [0x43#8]))).map
      (fun t => (t.a, t.ip)) = some (0x04#8, 0x01#8) := by decide

/-- V-L3: `LDA R`; Z untouched. -/
theorem test_VL3_ldaR :
    (endOf (step (start 0x00#8 0x06#8 0x00#8 false [0x43#8]))).map
      (fun t => (regs t, acts t)) =
    some ((0x00#8, 0x00#8, false, 0x01#8),
      ([.memRead 0x00#8 0x43#8], 4)) := by decide

/-- The source's example S33. -/
theorem test_S33_ldaM :
    (endOf (step ((start 0x00#8 0x06#8 0x10#8 false [0x44#8]).place 0x10#8 0x04#8))).map
      (fun t => (t.a, t.ip)) = some (0x04#8, 0x01#8) := by decide

/-- V-L2: `LDA M` with R = FFh. -/
theorem test_VL2_ldaM :
    (endOf (step ((start 0x00#8 0x06#8 0xFF#8 false [0x44#8]).place 0xFF#8 0x99#8))).map
      (fun t => (regs t, acts t)) =
    some ((0x99#8, 0xFF#8, false, 0x01#8),
      ([.memRead 0x00#8 0x44#8, .memRead 0xFF#8 0x99#8], 7)) := by decide

/-- The source's example S34. -/
theorem test_S34_ldaImm :
    (endOf (step (start 0x00#8 0x06#8 0x5A#8 false [0x46#8, 0x10#8]))).map
      (fun t => (t.a, t.ip)) = some (0x10#8, 0x02#8) := by decide

/-- V-L4: `LDA I 00h` does not set Z. -/
theorem test_VL4_ldaImm :
    (endOf (step (start 0x00#8 0x06#8 0x5A#8 false [0x46#8, 0x00#8]))).map
      (fun t => (regs t, acts t)) =
    some ((0x00#8, 0x5A#8, false, 0x02#8),
      ([.memRead 0x00#8 0x46#8, .memRead 0x01#8 0x00#8], 6)) := by decide

/-- The source's example S35. -/
theorem test_S35_ldrAddress :
    (endOf (step ((start 0x00#8 0xA5#8 0x06#8 false [0x48#8, 0x10#8]).place 0x10#8 0x04#8))).map
      (fun t => (t.r, t.ip)) = some (0x04#8, 0x02#8) := by decide

/-- V-L7: `LDR FFh`. -/
theorem test_VL7_ldrAddress :
    (endOf (step ((start 0x00#8 0xA5#8 0x06#8 false [0x48#8, 0xFF#8]).place 0xFF#8 0x80#8))).map
      (fun t => (regs t, acts t)) =
    some ((0xA5#8, 0x80#8, false, 0x02#8),
      ([.memRead 0x00#8 0x48#8, .memRead 0x01#8 0xFF#8, .memRead 0xFF#8 0x80#8], 9)) := by decide

/-- The source's example S36, corrected (conflict C3). -/
theorem test_S36_ldrA :
    (endOf (step (start 0x00#8 0x06#8 0x04#8 false [0x4A#8]))).map
      (fun t => (t.a, t.r, t.ip)) = some (0x06#8, 0x06#8, 0x01#8) := by decide

/-- V-L5: `LDR A` (corrected S36): R takes A, A keeps its value. -/
theorem test_VL5_ldrA :
    (endOf (step (start 0x00#8 0x06#8 0x04#8 false [0x4A#8]))).map
      (fun t => (regs t, acts t)) =
    some ((0x06#8, 0x06#8, false, 0x01#8),
      ([.memRead 0x00#8 0x4A#8], 4)) := by decide

/-- The source's example S37. -/
theorem test_S37_ldrR :
    (endOf (step (start 0x00#8 0xA5#8 0x06#8 false [0x4B#8]))).map
      (fun t => (t.r, t.ip)) = some (0x06#8, 0x01#8) := by decide

/-- The source's example S38. -/
theorem test_S38_ldrM :
    (endOf (step ((start 0x00#8 0xA5#8 0x10#8 false [0x4C#8]).place 0x10#8 0x04#8))).map
      (fun t => (t.r, t.ip)) = some (0x04#8, 0x01#8) := by decide

/-- V-L6: `LDR M`: R is both the address and the destination. -/
theorem test_VL6_ldrM :
    (endOf (step (((start 0x00#8 0xA5#8 0x10#8 false [0x4C#8]).place 0x10#8 0x20#8).place 0x20#8 0x30#8))).map
      (fun t => (regs t, acts t)) =
    some ((0xA5#8, 0x20#8, false, 0x01#8),
      ([.memRead 0x00#8 0x4C#8, .memRead 0x10#8 0x20#8], 7)) := by decide

/-- The source's example S39. -/
theorem test_S39_ldrImm :
    (endOf (step (start 0x00#8 0xA5#8 0x06#8 false [0x4E#8, 0x10#8]))).map
      (fun t => (t.r, t.ip)) = some (0x10#8, 0x02#8) := by decide

/-- The source's example S52. -/
theorem test_S52_staAddress :
    (endOf (step ((start 0x00#8 0x06#8 0x5A#8 false [0x50#8, 0x10#8]).place 0x10#8 0x04#8))).map
      (fun t => (t.mem.read 0x10, t.ip)) = some (0x06#8, 0x02#8) := by decide

/-- V-S2: `STA 01h` at 00h overwrites its own byte 2 after having read it. -/
theorem test_VS2_staAddress :
    (endOf (step (start 0x00#8 0x99#8 0x5A#8 false [0x50#8, 0x01#8]))).map
      (fun t => (regs t, acts t)) =
    some ((0x99#8, 0x5A#8, false, 0x02#8),
      ([.memRead 0x00#8 0x50#8, .memRead 0x01#8 0x01#8, .memWrite 0x01#8 0x99#8], 9)) := by decide

/-- The source's example S53. -/
theorem test_S53_staM :
    (endOf (step ((start 0x00#8 0x06#8 0x10#8 false [0x54#8]).place 0x10#8 0x04#8))).map
      (fun t => (t.mem.read 0x10, t.ip)) = some (0x06#8, 0x01#8) := by decide

/-- V-S6: `STA M` with R = FFh. -/
theorem test_VS6_staM :
    (endOf (step (start 0x00#8 0x01#8 0xFF#8 false [0x54#8]))).map
      (fun t => (regs t, acts t)) =
    some ((0x01#8, 0xFF#8, false, 0x01#8),
      ([.memRead 0x00#8 0x54#8, .memWrite 0xFF#8 0x01#8], 7)) := by decide

/-- The source's example S54. -/
theorem test_S54_strAddress :
    (endOf (step ((start 0x00#8 0xA5#8 0x06#8 false [0x58#8, 0x10#8]).place 0x10#8 0x04#8))).map
      (fun t => (t.mem.read 0x10, t.ip)) = some (0x06#8, 0x02#8) := by decide

/-- V-S5: `STR 00h` at 00h overwrites its own opcode; this execution is unaffected. -/
theorem test_VS5_strAddress :
    (endOf (step (start 0x00#8 0xA5#8 0x20#8 false [0x58#8, 0x00#8]))).map
      (fun t => (regs t, acts t)) =
    some ((0xA5#8, 0x20#8, false, 0x02#8),
      ([.memRead 0x00#8 0x58#8, .memRead 0x01#8 0x00#8, .memWrite 0x00#8 0x20#8], 9)) := by decide

/-- The source's example S55. -/
theorem test_S55_strM :
    (endOf (step ((start 0x00#8 0x06#8 0x10#8 false [0x5C#8]).place 0x10#8 0x04#8))).map
      (fun t => (t.mem.read 0x10, t.ip)) = some (0x10#8, 0x01#8) := by decide

/-- V-S4: `STR M` stores R at MEM[R]. -/
theorem test_VS4_strM :
    (endOf (step ((start 0x00#8 0x06#8 0x10#8 false [0x5C#8]).place 0x10#8 0x04#8))).map
      (fun t => (regs t, acts t)) =
    some ((0x06#8, 0x10#8, false, 0x01#8),
      ([.memRead 0x00#8 0x5C#8, .memWrite 0x10#8 0x10#8], 7)) := by decide

/-- The source's example S02. -/
theorem test_S02_addAddress :
    (endOf (step ((start 0x00#8 0x06#8 0x5A#8 false [0x60#8, 0x10#8]).place 0x10#8 0x04#8))).map
      (fun t => (t.a, t.ip)) = some (0x0A#8, 0x02#8) := by decide

/-- V-A8: `ADD 10h`, no wrap; memory unchanged. -/
theorem test_VA8_addAddress :
    (endOf (step ((start 0x00#8 0x01#8 0x5A#8 false [0x60#8, 0x10#8]).place 0x10#8 0x7F#8))).map
      (fun t => (regs t, acts t)) =
    some ((0x80#8, 0x5A#8, false, 0x02#8),
      ([.memRead 0x00#8 0x60#8, .memRead 0x01#8 0x10#8, .memRead 0x10#8 0x7F#8], 9)) := by decide

/-- The source's example S03. -/
theorem test_S03_addA :
    (endOf (step (start 0x00#8 0x06#8 0x5A#8 false [0x62#8]))).map
      (fun t => (t.a, t.ip)) = some (0x0C#8, 0x01#8) := by decide

/-- V-A5: `ADD A`, A = 80h: 00h; same as `SHL A`. -/
theorem test_VA5_addA :
    (endOf (step (start 0x00#8 0x80#8 0x5A#8 false [0x62#8]))).map
      (fun t => (regs t, acts t)) =
    some ((0x00#8, 0x5A#8, false, 0x01#8),
      ([.memRead 0x00#8 0x62#8], 4)) := by decide

/-- The source's example S04. -/
theorem test_S04_addR :
    (endOf (step (start 0x00#8 0x06#8 0x04#8 false [0x63#8]))).map
      (fun t => (t.a, t.ip)) = some (0x0A#8, 0x01#8) := by decide

/-- V-A6: `ADD R`, A = C8h, R = 64h: 2Ch (200 + 100 = 300 = 256 + 44). -/
theorem test_VA6_addR :
    (endOf (step (start 0x00#8 0xC8#8 0x64#8 false [0x63#8]))).map
      (fun t => (regs t, acts t)) =
    some ((0x2C#8, 0x64#8, false, 0x01#8),
      ([.memRead 0x00#8 0x63#8], 4)) := by decide

/-- The source's example S05. -/
theorem test_S05_addM :
    (endOf (step ((start 0x00#8 0x06#8 0x10#8 false [0x64#8]).place 0x10#8 0x04#8))).map
      (fun t => (t.a, t.ip)) = some (0x0A#8, 0x01#8) := by decide

/-- V-A7: `ADD M`, R = 10h. -/
theorem test_VA7_addM :
    (endOf (step ((start 0x00#8 0x02#8 0x10#8 false [0x64#8]).place 0x10#8 0xFF#8))).map
      (fun t => (regs t, acts t)) =
    some ((0x01#8, 0x10#8, false, 0x01#8),
      ([.memRead 0x00#8 0x64#8, .memRead 0x10#8 0xFF#8], 7)) := by decide

/-- The source's example S06. -/
theorem test_S06_addImm :
    (endOf (step (start 0x00#8 0x06#8 0x5A#8 false [0x66#8, 0x10#8]))).map
      (fun t => (t.a, t.ip)) = some (0x16#8, 0x02#8) := by decide

/-- V-A1: `ADD I 01h`, A = FFh: wraps to 00h; Z is not written. -/
theorem test_VA1_addImm :
    (endOf (step (start 0x00#8 0xFF#8 0x5A#8 false [0x66#8, 0x01#8]))).map
      (fun t => (regs t, acts t)) =
    some ((0x00#8, 0x5A#8, false, 0x02#8),
      ([.memRead 0x00#8 0x66#8, .memRead 0x01#8 0x01#8], 6)) := by decide

/-- The source's example S56. -/
theorem test_S56_subAddress :
    (endOf (step ((start 0x00#8 0x06#8 0x5A#8 false [0x68#8, 0x10#8]).place 0x10#8 0x04#8))).map
      (fun t => (t.a, t.ip)) = some (0x02#8, 0x02#8) := by decide

/-- V-A13: `SUB 10h`, A = 80h, MEM = 01h: 7Fh. -/
theorem test_VA13_subAddress :
    (endOf (step ((start 0x00#8 0x80#8 0x5A#8 false [0x68#8, 0x10#8]).place 0x10#8 0x01#8))).map
      (fun t => (regs t, acts t)) =
    some ((0x7F#8, 0x5A#8, false, 0x02#8),
      ([.memRead 0x00#8 0x68#8, .memRead 0x01#8 0x10#8, .memRead 0x10#8 0x01#8], 9)) := by decide

/-- The source's example S57. -/
theorem test_S57_subA :
    (endOf (step (start 0x00#8 0x06#8 0x5A#8 false [0x6A#8]))).map
      (fun t => (t.a, t.ip)) = some (0x00#8, 0x01#8) := by decide

/-- V-A12: `SUB A` clears A but leaves Z = 0. -/
theorem test_VA12_subA :
    (endOf (step (start 0x00#8 0xD7#8 0x5A#8 false [0x6A#8]))).map
      (fun t => (regs t, acts t)) =
    some ((0x00#8, 0x5A#8, false, 0x01#8),
      ([.memRead 0x00#8 0x6A#8], 4)) := by decide

/-- The source's example S58. -/
theorem test_S58_subR :
    (endOf (step (start 0x00#8 0x06#8 0x04#8 false [0x6B#8]))).map
      (fun t => (t.a, t.ip)) = some (0x02#8, 0x01#8) := by decide

/-- V-A11: `SUB R`, A = 04h, R = 06h: FEh. -/
theorem test_VA11_subR :
    (endOf (step (start 0x00#8 0x04#8 0x06#8 false [0x6B#8]))).map
      (fun t => (regs t, acts t)) =
    some ((0xFE#8, 0x06#8, false, 0x01#8),
      ([.memRead 0x00#8 0x6B#8], 4)) := by decide

/-- The source's example S59. -/
theorem test_S59_subM :
    (endOf (step ((start 0x00#8 0x06#8 0x10#8 false [0x6C#8]).place 0x10#8 0x04#8))).map
      (fun t => (t.a, t.ip)) = some (0x02#8, 0x01#8) := by decide

/-- V-A14: `SUB M`, equal operands: 00h, Z untouched. -/
theorem test_VA14_subM :
    (endOf (step ((start 0x00#8 0x33#8 0x10#8 false [0x6C#8]).place 0x10#8 0x33#8))).map
      (fun t => (regs t, acts t)) =
    some ((0x00#8, 0x10#8, false, 0x01#8),
      ([.memRead 0x00#8 0x6C#8, .memRead 0x10#8 0x33#8], 7)) := by decide

/-- V-A10: `SUB I 01h`, A = 00h: FFh. -/
theorem test_VA10_subImm :
    (endOf (step (start 0x00#8 0x00#8 0x5A#8 true [0x6E#8, 0x01#8]))).map
      (fun t => (regs t, acts t)) =
    some ((0xFF#8, 0x5A#8, true, 0x02#8),
      ([.memRead 0x00#8 0x6E#8, .memRead 0x01#8 0x01#8], 6)) := by decide

/-- V-A9: `SUB I 04h`, A = 06h (the lost example, derived). -/
theorem test_VA9_subImm :
    (endOf (step (start 0x00#8 0x06#8 0x5A#8 false [0x6E#8, 0x04#8]))).map
      (fun t => (regs t, acts t)) =
    some ((0x02#8, 0x5A#8, false, 0x02#8),
      ([.memRead 0x00#8 0x6E#8, .memRead 0x01#8 0x04#8], 6)) := by decide

/-- The source's example S12. -/
theorem test_S12_decAddress :
    (endOf (step ((start 0x00#8 0x06#8 0x5A#8 false [0x70#8, 0x10#8]).place 0x10#8 0x04#8))).map
      (fun t => (t.a, t.ip)) = some (0x03#8, 0x02#8) := by decide

/-- V-A19: `DEC 10h`, MEM = 00h: A = FFh; the cell is not written. -/
theorem test_VA19_decAddress :
    (endOf (step ((start 0x00#8 0x06#8 0x5A#8 false [0x70#8, 0x10#8]).place 0x10#8 0x00#8))).map
      (fun t => (regs t, acts t)) =
    some ((0xFF#8, 0x5A#8, false, 0x02#8),
      ([.memRead 0x00#8 0x70#8, .memRead 0x01#8 0x10#8, .memRead 0x10#8 0x00#8], 11)) := by decide

/-- The source's example S13. -/
theorem test_S13_decA :
    (endOf (step (start 0x00#8 0x06#8 0x5A#8 false [0x72#8]))).map
      (fun t => (t.a, t.ip)) = some (0x05#8, 0x01#8) := by decide

/-- V-A15: `DEC A`, A = 00h: FFh. -/
theorem test_VA15_decA :
    (endOf (step (start 0x00#8 0x00#8 0x5A#8 true [0x72#8]))).map
      (fun t => (regs t, acts t)) =
    some ((0xFF#8, 0x5A#8, true, 0x01#8),
      ([.memRead 0x00#8 0x72#8], 4)) := by decide

/-- The source's example S14. -/
theorem test_S14_decR :
    (endOf (step (start 0x00#8 0x06#8 0x04#8 false [0x73#8]))).map
      (fun t => (t.a, t.r, t.ip)) = some (0x03#8, 0x03#8, 0x01#8) := by decide

/-- V-A17: `DEC R`, R = 00h: R = FFh and A = FFh (old A lost). -/
theorem test_VA17_decR :
    (endOf (step (start 0x00#8 0x55#8 0x00#8 false [0x73#8]))).map
      (fun t => (regs t, acts t)) =
    some ((0xFF#8, 0xFF#8, false, 0x01#8),
      ([.memRead 0x00#8 0x73#8], 7)) := by decide

/-- The source's example S15. -/
theorem test_S15_decM :
    (endOf (step ((start 0x00#8 0x06#8 0x10#8 false [0x74#8]).place 0x10#8 0x04#8))).map
      (fun t => (t.a, t.ip)) = some (0x03#8, 0x01#8) := by decide

/-- V-A20: `DEC M`: A = MEM[R] - 1; R and the cell unchanged. -/
theorem test_VA20_decM :
    (endOf (step ((start 0x00#8 0x06#8 0x10#8 false [0x74#8]).place 0x10#8 0x10#8))).map
      (fun t => (regs t, acts t)) =
    some ((0x0F#8, 0x10#8, false, 0x01#8),
      ([.memRead 0x00#8 0x74#8, .memRead 0x10#8 0x10#8], 9)) := by decide

/-- The source's example S16. -/
theorem test_S16_decImm :
    (endOf (step (start 0x00#8 0x06#8 0x5A#8 false [0x76#8, 0x10#8]))).map
      (fun t => (t.a, t.ip)) = some (0x0F#8, 0x02#8) := by decide

/-- V-A21: `DEC I 00h`: A = FFh. -/
theorem test_VA21_decImm :
    (endOf (step (start 0x00#8 0x06#8 0x5A#8 false [0x76#8, 0x00#8]))).map
      (fun t => (regs t, acts t)) =
    some ((0xFF#8, 0x5A#8, false, 0x02#8),
      ([.memRead 0x00#8 0x76#8, .memRead 0x01#8 0x00#8], 8)) := by decide

/-- The source's example S40. -/
theorem test_S40_orAddress :
    (endOf (step ((start 0x00#8 0x06#8 0x5A#8 false [0x80#8, 0x10#8]).place 0x10#8 0x40#8))).map
      (fun t => (t.a, t.ip)) = some (0x46#8, 0x02#8) := by decide

/-- V-G5: `OR 10h`. -/
theorem test_VG5_orAddress :
    (endOf (step ((start 0x00#8 0x18#8 0x5A#8 false [0x80#8, 0x10#8]).place 0x10#8 0x81#8))).map
      (fun t => (regs t, acts t)) =
    some ((0x99#8, 0x5A#8, false, 0x02#8),
      ([.memRead 0x00#8 0x80#8, .memRead 0x01#8 0x10#8, .memRead 0x10#8 0x81#8], 9)) := by decide

/-- The source's example S41. -/
theorem test_S41_orA :
    (endOf (step (start 0x00#8 0x06#8 0x5A#8 false [0x82#8]))).map
      (fun t => (t.a, t.ip)) = some (0x06#8, 0x01#8) := by decide

/-- The source's example S42. -/
theorem test_S42_orR :
    (endOf (step (start 0x00#8 0x06#8 0x40#8 false [0x83#8]))).map
      (fun t => (t.a, t.ip)) = some (0x46#8, 0x01#8) := by decide

/-- V-G4: `OR R` with overlapping bits: 66h OR 3Ch = 7Eh. -/
theorem test_VG4_orR :
    (endOf (step (start 0x00#8 0x66#8 0x3C#8 false [0x83#8]))).map
      (fun t => (regs t, acts t)) =
    some ((0x7E#8, 0x3C#8, false, 0x01#8),
      ([.memRead 0x00#8 0x83#8], 4)) := by decide

/-- The source's example S43. -/
theorem test_S43_orM :
    (endOf (step ((start 0x00#8 0x06#8 0x10#8 false [0x84#8]).place 0x10#8 0x40#8))).map
      (fun t => (t.a, t.ip)) = some (0x46#8, 0x01#8) := by decide

/-- V-G6: `OR M`. -/
theorem test_VG6_orM :
    (endOf (step ((start 0x00#8 0x0F#8 0x10#8 false [0x84#8]).place 0x10#8 0xF0#8))).map
      (fun t => (regs t, acts t)) =
    some ((0xFF#8, 0x10#8, false, 0x01#8),
      ([.memRead 0x00#8 0x84#8, .memRead 0x10#8 0xF0#8], 7)) := by decide

/-- The source's example S44. -/
theorem test_S44_orImm :
    (endOf (step (start 0x00#8 0x06#8 0x5A#8 false [0x86#8, 0x10#8]))).map
      (fun t => (t.a, t.ip)) = some (0x16#8, 0x02#8) := by decide

/-- V-G1: `OR I 00h`: A unchanged. -/
theorem test_VG1_orImm :
    (endOf (step (start 0x00#8 0x5A#8 0x5A#8 false [0x86#8, 0x00#8]))).map
      (fun t => (regs t, acts t)) =
    some ((0x5A#8, 0x5A#8, false, 0x02#8),
      ([.memRead 0x00#8 0x86#8, .memRead 0x01#8 0x00#8], 6)) := by decide

/-- The source's example S19. -/
theorem test_S19_invAddress :
    (endOf (step ((start 0x00#8 0x06#8 0x5A#8 false [0x88#8, 0x10#8]).place 0x10#8 0x04#8))).map
      (fun t => (t.a, t.ip)) = some (0xFB#8, 0x02#8) := by decide

/-- V-G10: `INV 10h`: the cell is not written. -/
theorem test_VG10_invAddress :
    (endOf (step ((start 0x00#8 0x06#8 0x5A#8 false [0x88#8, 0x10#8]).place 0x10#8 0x0F#8))).map
      (fun t => (regs t, acts t)) =
    some ((0xF0#8, 0x5A#8, false, 0x02#8),
      ([.memRead 0x00#8 0x88#8, .memRead 0x01#8 0x10#8, .memRead 0x10#8 0x0F#8], 9)) := by decide

/-- The source's example S20. -/
theorem test_S20_invA :
    (endOf (step (start 0x00#8 0x04#8 0x5A#8 false [0x8A#8]))).map
      (fun t => (t.a, t.ip)) = some (0xFB#8, 0x01#8) := by decide

/-- V-G7: `INV A`, A = FFh: 00h; Z untouched (stays 0). -/
theorem test_VG7_invA :
    (endOf (step (start 0x00#8 0xFF#8 0x5A#8 false [0x8A#8]))).map
      (fun t => (regs t, acts t)) =
    some ((0x00#8, 0x5A#8, false, 0x01#8),
      ([.memRead 0x00#8 0x8A#8], 4)) := by decide

/-- The source's example S21. -/
theorem test_S21_invR :
    (endOf (step (start 0x00#8 0x06#8 0x04#8 false [0x8B#8]))).map
      (fun t => (t.a, t.r, t.ip)) = some (0xFB#8, 0xFB#8, 0x01#8) := by decide

/-- V-G9: `INV R`, R = 00h: R = FFh and A = FFh (old A lost). -/
theorem test_VG9_invR :
    (endOf (step (start 0x00#8 0x12#8 0x00#8 false [0x8B#8]))).map
      (fun t => (regs t, acts t)) =
    some ((0xFF#8, 0xFF#8, false, 0x01#8),
      ([.memRead 0x00#8 0x8B#8], 5)) := by decide

/-- The source's example S22. -/
theorem test_S22_invM :
    (endOf (step ((start 0x00#8 0x06#8 0x10#8 false [0x8C#8]).place 0x10#8 0x04#8))).map
      (fun t => (t.a, t.ip)) = some (0xFB#8, 0x01#8) := by decide

/-- V-G11: `INV M`. -/
theorem test_VG11_invM :
    (endOf (step ((start 0x00#8 0x06#8 0x10#8 false [0x8C#8]).place 0x10#8 0xAA#8))).map
      (fun t => (regs t, acts t)) =
    some ((0x55#8, 0x10#8, false, 0x01#8),
      ([.memRead 0x00#8 0x8C#8, .memRead 0x10#8 0xAA#8], 7)) := by decide

/-- The source's example S23. -/
theorem test_S23_invImm :
    (endOf (step (start 0x00#8 0x06#8 0x5A#8 false [0x8E#8, 0x04#8]))).map
      (fun t => (t.a, t.ip)) = some (0xFB#8, 0x02#8) := by decide

/-- V-G12: `INV I 00h`: FFh. -/
theorem test_VG12_invImm :
    (endOf (step (start 0x00#8 0x06#8 0x5A#8 false [0x8E#8, 0x00#8]))).map
      (fun t => (regs t, acts t)) =
    some ((0xFF#8, 0x5A#8, false, 0x02#8),
      ([.memRead 0x00#8 0x8E#8, .memRead 0x01#8 0x00#8], 6)) := by decide

/-- The source's example S47. -/
theorem test_S47_shlAddress :
    (endOf (step ((start 0x00#8 0x06#8 0x5A#8 false [0x90#8, 0x10#8]).place 0x10#8 0x04#8))).map
      (fun t => (t.a, t.ip)) = some (0x08#8, 0x02#8) := by decide

/-- V-G18: `SHL 10h`, MEM = 55h: A = AAh; the cell is not written. -/
theorem test_VG18_shlAddress :
    (endOf (step ((start 0x00#8 0x06#8 0x5A#8 false [0x90#8, 0x10#8]).place 0x10#8 0x55#8))).map
      (fun t => (regs t, acts t)) =
    some ((0xAA#8, 0x5A#8, false, 0x02#8),
      ([.memRead 0x00#8 0x90#8, .memRead 0x01#8 0x10#8, .memRead 0x10#8 0x55#8], 11)) := by decide

/-- The source's example S48. -/
theorem test_S48_shlA :
    (endOf (step (start 0x00#8 0x04#8 0x5A#8 false [0x92#8]))).map
      (fun t => (t.a, t.ip)) = some (0x08#8, 0x01#8) := by decide

/-- V-G14: `SHL A`, A = 81h: 02h. -/
theorem test_VG14_shlA :
    (endOf (step (start 0x00#8 0x81#8 0x5A#8 false [0x92#8]))).map
      (fun t => (regs t, acts t)) =
    some ((0x02#8, 0x5A#8, false, 0x01#8),
      ([.memRead 0x00#8 0x92#8], 4)) := by decide

/-- The source's example S49. -/
theorem test_S49_shlR :
    (endOf (step (start 0x00#8 0x06#8 0x04#8 false [0x93#8]))).map
      (fun t => (t.a, t.r, t.ip)) = some (0x08#8, 0x08#8, 0x01#8) := by decide

/-- V-G17: `SHL R`, R = C0h: R = 80h and A = 80h (old A lost). -/
theorem test_VG17_shlR :
    (endOf (step (start 0x00#8 0x01#8 0xC0#8 false [0x93#8]))).map
      (fun t => (regs t, acts t)) =
    some ((0x80#8, 0x80#8, false, 0x01#8),
      ([.memRead 0x00#8 0x93#8], 7)) := by decide

/-- The source's example S50. -/
theorem test_S50_shlM :
    (endOf (step ((start 0x00#8 0x06#8 0x10#8 false [0x94#8]).place 0x10#8 0x04#8))).map
      (fun t => (t.a, t.ip)) = some (0x08#8, 0x01#8) := by decide

/-- V-G19: `SHL M`. -/
theorem test_VG19_shlM :
    (endOf (step ((start 0x00#8 0x06#8 0x10#8 false [0x94#8]).place 0x10#8 0x7F#8))).map
      (fun t => (regs t, acts t)) =
    some ((0xFE#8, 0x10#8, false, 0x01#8),
      ([.memRead 0x00#8 0x94#8, .memRead 0x10#8 0x7F#8], 9)) := by decide

/-- The source's example S51. -/
theorem test_S51_shlImm :
    (endOf (step (start 0x00#8 0x06#8 0x5A#8 false [0x96#8, 0x04#8]))).map
      (fun t => (t.a, t.ip)) = some (0x08#8, 0x02#8) := by decide

/-- V-G20: `SHL I 80h`: 00h. -/
theorem test_VG20_shlImm :
    (endOf (step (start 0x00#8 0x06#8 0x5A#8 false [0x96#8, 0x80#8]))).map
      (fun t => (regs t, acts t)) =
    some ((0x00#8, 0x5A#8, false, 0x02#8),
      ([.memRead 0x00#8 0x96#8, .memRead 0x01#8 0x80#8], 8)) := by decide

/-- V-F4: 01h is undefined; the fault records the byte, its address and the state after FETCH. -/
theorem test_VF4_fault : step (start 0x00#8 0x12#8 0x34#8 true [0x01#8]) =
    .fault (.illegalOpcode 0x01#8 0x00#8 (afterFetchOf (start 0x00#8 0x12#8 0x34#8 true [0x01#8]) 0x01#8)) := by rfl

/-- V-F8: FFh at FFh; IP has wrapped. -/
theorem test_VF8_fault : step (start 0xFF#8 0x12#8 0x34#8 true [0xFF#8]) =
    .fault (.illegalOpcode 0xFF#8 0xFF#8 (afterFetchOf (start 0xFF#8 0x12#8 0x34#8 true [0xFF#8]) 0xFF#8)) := by rfl

/-- 20_memory.md R46: a store to rom leaves the cell, and the access is made. -/
theorem test_store_to_rom : (endOf (step ({ start 0x00#8 0x06#8 0x5A#8 false [0x50#8, 0x10#8] with
    memMap := [⟨0x10#8, 0x1F#8, .rom⟩] }))).map (fun t => (t.mem.read 0x10, t.trace.head?)) =
    some (0x00#8, some (.memWrite 0x10#8 0x06#8)) := by decide

/-- A table word placed where step fetches runs as the first instruction after reset. -/
theorem test_withFetchWord :
    (endOf (step (State.reset.withFetchWord 16 0x0766))).map (fun t => (t.a, t.ip)) = some (0x07#8, 0x02#8) := by decide

/-- After reset: RESET_IP, nothing listed in memory, no access made (70_reset_and_hazards.md R230, R231). -/
theorem test_reset : State.reset.ip = 0x00#8 ∧ State.reset.mem = [] ∧ State.reset.trace = [] := by decide

/-- The figures of 70_reset_and_hazards.md R241 for JNZ address, both ways, and for SHL address and INV R. -/
theorem test_clockFigure : clockFigure true (.jnzAddress 0x10#8) = 4 ∧ clockFigure false (.jnzAddress 0x10#8) = 6 ∧
    clockFigure false (.shlAddress 0x10#8) = 11 ∧ clockFigure false .invR = 5 := by decide

/-! ### States and operands that meet the hypotheses of the statements

The states put byte 1 at FFh, so that byte 2 is at 00h, and byte 2 is FFh, or IP where a jump is to go to itself. -/

/-- A state with the bytes `code` at FFh and 00h, the zero flag at `z`, A = FFh and R = FFh. -/
def edge (z : Bool) (code : List Byte) : State := start 0xFF#8 0xFF#8 0xFF#8 z code

/-- The same with ports that answer 00h, then FFh. -/
def edgePorts (code : List Byte) : State := { edge false code with portScript := [0x00#8, 0xFF#8] }

/-- The same with nothing fitted at 80h to FEh and rom at 40h to 7Fh. -/
def edgeMap (z : Bool) (code : List Byte) : State :=
  { edge z code with memMap := [⟨0x80#8, 0xFE#8, .absent⟩, ⟨0x40#8, 0x7F#8, .rom⟩] }

theorem test_witness_DecodeOfEncode : (Instr.addImm 0xFF#8).WellFormed ∧ Instr.fetch.WellFormed := by decide

theorem test_witness_EncodeOfDecode : decode [0x66#8, 0xFF#8, 0x00#8] = .ok (.addImm 0xFF#8, [0x00#8]) := by decide

theorem test_witness_LengthFollowsModeField :
    decode [0x66#8, 0xFF#8] = .ok (.addImm 0xFF#8, []) ∧ decode [0x00#8, 0xFF#8] = .ok (.fetch, [0xFF#8]) ∧
    decode [0x94#8, 0xFF#8] = .ok (.shlM, [0xFF#8]) := by decide

theorem test_witness_StepRunsDecodedInstruction :
    (Instr.addImm 0xFF#8).WellFormed ∧
    decode (edge false [0x66#8, 0xFF#8]).fetchBytes = .ok (.addImm 0xFF#8, []) := by decide

theorem test_witness_UnlistedByteFaults :
    ∀ i : Instr, (encode i).head? ≠ some ((edge false [0xFF#8]).cell (edge false [0xFF#8]).ip) := by
  intro i h
  have hb : (edge false [0xFF#8]).cell (edge false [0xFF#8]).ip = 0xFF#8 := by decide
  rw [hb] at h
  cases i <;> simp [encode, Instr.form, Form.bytes, Form.byte1, Operation.code, Mode.code] at h

theorem test_witness_EveryInstructionCompletes : isJump (.addImm 0xFF#8) = false := by decide

theorem test_witness_IrHoldsTheOpcode :
    step (edge false [0x66#8, 0xFF#8]) = .next (afterStep (edge false [0x66#8, 0xFF#8])) := by rfl

theorem test_witness_FetchIsNoOperation : Fetches (edge false [0x00#8]) [0x00#8] := by decide

theorem test_witness_InLoadsPortByte :
    Fetches (edgePorts [0x08#8, 0xFF#8]) [0x08#8, 0xFF#8] ∧
    Fetches (edgePorts [0x0C#8]) [0x0C#8] := by decide

theorem test_witness_OutWritesPort :
    Fetches (edge false [0x10#8, 0xFF#8]) [0x10#8, 0xFF#8] ∧
    Fetches (edge false [0x14#8]) [0x14#8] := by decide

theorem test_witness_JmpLoadsIp :
    Fetches (edge false [0x20#8, 0xFF#8]) [0x20#8, 0xFF#8] ∧
    Fetches (edge false [0x23#8]) [0x23#8] := by decide

theorem test_witness_JnzJumpsWhenZClear_taken :
    Fetches (edge false [0x28#8, 0xFF#8]) [0x28#8, 0xFF#8] ∧ (edge false [0x28#8, 0xFF#8]).z = false ∧
    Fetches (edge false [0x2B#8]) [0x2B#8] ∧ (edge false [0x2B#8]).z = false := by decide

theorem test_witness_JnzJumpsWhenZClear_not_taken :
    Fetches (edge true [0x28#8, 0xFF#8]) [0x28#8, 0xFF#8] ∧ (edge true [0x28#8, 0xFF#8]).z = true ∧
    Fetches (edge true [0x2B#8]) [0x2B#8] ∧ (edge true [0x2B#8]).z = true := by decide

theorem test_witness_JzJumpsWhenZSet_taken :
    Fetches (edge true [0x30#8, 0xFF#8]) [0x30#8, 0xFF#8] ∧ (edge true [0x30#8, 0xFF#8]).z = true ∧
    Fetches (edge true [0x33#8]) [0x33#8] ∧ (edge true [0x33#8]).z = true := by decide

theorem test_witness_JzJumpsWhenZSet_not_taken :
    Fetches (edge false [0x30#8, 0xFF#8]) [0x30#8, 0xFF#8] ∧ (edge false [0x30#8, 0xFF#8]).z = false ∧
    Fetches (edge false [0x33#8]) [0x33#8] ∧ (edge false [0x33#8]).z = false := by decide

theorem test_witness_CmpWritesZ :
    Fetches (edge false [0x38#8, 0xFF#8]) [0x38#8, 0xFF#8] ∧
    Fetches (edge false [0x3A#8]) [0x3A#8] ∧
    Fetches (edge false [0x3B#8]) [0x3B#8] ∧
    Fetches (edge false [0x3C#8]) [0x3C#8] ∧
    Fetches (edge false [0x3E#8, 0xFF#8]) [0x3E#8, 0xFF#8] := by decide

theorem test_witness_TakenConditionalIsJmp : (edge false [0x2B#8]).z = false ∧ (edge true [0x33#8]).z = true := by decide

theorem test_witness_LdaLoadsA :
    Fetches (edge false [0x40#8, 0xFF#8]) [0x40#8, 0xFF#8] ∧
    Fetches (edge false [0x42#8]) [0x42#8] ∧
    Fetches (edge false [0x43#8]) [0x43#8] ∧
    Fetches (edge false [0x44#8]) [0x44#8] ∧
    Fetches (edge false [0x46#8, 0xFF#8]) [0x46#8, 0xFF#8] := by decide

theorem test_witness_LdrLoadsR :
    Fetches (edge false [0x48#8, 0xFF#8]) [0x48#8, 0xFF#8] ∧
    Fetches (edge false [0x4A#8]) [0x4A#8] ∧
    Fetches (edge false [0x4B#8]) [0x4B#8] ∧
    Fetches (edge false [0x4C#8]) [0x4C#8] ∧
    Fetches (edge false [0x4E#8, 0xFF#8]) [0x4E#8, 0xFF#8] := by decide

theorem test_witness_StaStoresA :
    Fetches (edge false [0x50#8, 0xFF#8]) [0x50#8, 0xFF#8] ∧
    Fetches (edge false [0x54#8]) [0x54#8] := by decide

theorem test_witness_StrStoresR :
    Fetches (edge false [0x58#8, 0xFF#8]) [0x58#8, 0xFF#8] ∧
    Fetches (edge false [0x5C#8]) [0x5C#8] := by decide

/-- The cases of a store: ram, with memory in canonical form, and rom. -/
theorem test_witness_StoresAt :
    ((edgeMap false [0x50#8, 0xFF#8]).kindAt 0xFF#8 = .ram ∧ (edgeMap false [0x50#8, 0xFF#8]).Inv) ∧
    Fetches (edgeMap false [0x50#8, 0x40#8]) [0x50#8, 0x40#8] ∧
    (edgeMap false [0x50#8, 0x40#8]).kindAt 0x40#8 = .rom := by decide

theorem test_witness_NoOperationsMoveOnlyIp :
    Fetches (edge false [0x42#8]) [0x42#8] ∧ Fetches (edge false [0x4B#8]) [0x4B#8] ∧
    Fetches (edge false [0x82#8]) [0x82#8] ∧ Fetches (edge false [0x00#8]) [0x00#8] := by decide

theorem test_witness_AddIsSumModulo256 :
    Fetches (edge false [0x60#8, 0xFF#8]) [0x60#8, 0xFF#8] ∧
    Fetches (edge false [0x62#8]) [0x62#8] ∧
    Fetches (edge false [0x63#8]) [0x63#8] ∧
    Fetches (edge false [0x64#8]) [0x64#8] ∧
    Fetches (edge false [0x66#8, 0xFF#8]) [0x66#8, 0xFF#8] := by decide

theorem test_witness_SubIsDifferenceModulo256 :
    Fetches (edge false [0x68#8, 0xFF#8]) [0x68#8, 0xFF#8] ∧
    Fetches (edge false [0x6A#8]) [0x6A#8] ∧
    Fetches (edge false [0x6B#8]) [0x6B#8] ∧
    Fetches (edge false [0x6C#8]) [0x6C#8] := by decide

theorem test_witness_SubImmediateIsDifference :
    Fetches (edge false [0x6E#8, 0xFF#8]) [0x6E#8, 0xFF#8] := by decide

theorem test_witness_DecIsPredecessorModulo256 :
    Fetches (edge false [0x70#8, 0xFF#8]) [0x70#8, 0xFF#8] ∧
    Fetches (edge false [0x72#8]) [0x72#8] ∧
    Fetches (edge false [0x73#8]) [0x73#8] ∧
    Fetches (edge false [0x74#8]) [0x74#8] ∧
    Fetches (edge false [0x76#8, 0xFF#8]) [0x76#8, 0xFF#8] := by decide

theorem test_witness_OrIsBitwiseOr :
    Fetches (edge false [0x80#8, 0xFF#8]) [0x80#8, 0xFF#8] ∧
    Fetches (edge false [0x82#8]) [0x82#8] ∧
    Fetches (edge false [0x83#8]) [0x83#8] ∧
    Fetches (edge false [0x84#8]) [0x84#8] ∧
    Fetches (edge false [0x86#8, 0xFF#8]) [0x86#8, 0xFF#8] := by decide

theorem test_witness_InvIsBitwiseComplement :
    Fetches (edge false [0x88#8, 0xFF#8]) [0x88#8, 0xFF#8] ∧
    Fetches (edge false [0x8A#8]) [0x8A#8] ∧
    Fetches (edge false [0x8B#8]) [0x8B#8] ∧
    Fetches (edge false [0x8C#8]) [0x8C#8] ∧
    Fetches (edge false [0x8E#8, 0xFF#8]) [0x8E#8, 0xFF#8] := by decide

theorem test_witness_ShlShiftsLeftByOne :
    Fetches (edge false [0x90#8, 0xFF#8]) [0x90#8, 0xFF#8] ∧
    Fetches (edge false [0x92#8]) [0x92#8] ∧
    Fetches (edge false [0x93#8]) [0x93#8] ∧
    Fetches (edge false [0x94#8]) [0x94#8] ∧
    Fetches (edge false [0x96#8, 0xFF#8]) [0x96#8, 0xFF#8] := by decide

theorem test_witness_OnlyListedWriters : exec .staM (edge false []) = .next (afterExec .staM (edge false [])) ∧
    writesA .staM = false ∧ writesR .staM = false ∧ writesZ .staM = false ∧ writesMem .addA = false :=
  ⟨rfl, by decide⟩

theorem test_witness_OnlyCmpChangesZ :
    step (edge false [0x3A#8]) = .next (afterStep (edge false [0x3A#8])) ∧
    (afterStep (edge false [0x3A#8])).z ≠ (edge false [0x3A#8]).z := ⟨rfl, by decide⟩

theorem test_witness_OnlyListedReadersOfA : readsA (.ldaImm 0xFF#8) = false ∧ readsA .strM = false ∧
    exec .strM (edge false []) = .next (afterExec .strM (edge false [])) := ⟨by decide, by decide, rfl⟩

theorem test_witness_OnlyListedReadersOfR : readsR (.ldrImm 0xFF#8) = false ∧ readsR .addA = false ∧
    exec .addA (edge false []) = .next (afterExec .addA (edge false [])) := ⟨by decide, by decide, rfl⟩

theorem test_witness_OnlyConditionalJumpsReadZ : readsZ .cmpA = false ∧ readsZ .jmpR = false ∧
    exec .cmpA (edge true []) = .next (afterExec .cmpA (edge true [])) := ⟨by decide, by decide, rfl⟩

theorem test_witness_PortAccessesAreInAndOut : reachesPorts .addA = false ∧ reachesPorts .inP = true ∧
    exec .inP (edgePorts []) = .next (afterExec .inP (edgePorts [])) := ⟨by decide, by decide, rfl⟩

theorem test_witness_AtMostThreeAccessesWriteLast :
    step (edge false [0x50#8, 0xFF#8]) = .next (afterStep (edge false [0x50#8, 0xFF#8])) := by rfl

theorem test_witness_ClockCyclesAreTheTable :
    decode (edge true [0x28#8, 0xFF#8]).fetchBytes = .ok (.jnzAddress 0xFF#8, []) ∧
    step (edge true [0x28#8, 0xFF#8]) = .next (afterStep (edge true [0x28#8, 0xFF#8])) := ⟨by decide, rfl⟩

/-- The micro-instruction machine about to run `ADD FFh`, with its latches at any values. -/
def microEdge : MicroState := ⟨edge false [0x60#8, 0xFF#8], 1#8, 2#8, 3#8, 4#8, 5#8, 6#8, 7#8, 8#8, 9#8, 10#8⟩

theorem test_witness_MicroProgramsReachTheStep :
    decode microEdge.cpu.fetchBytes = .ok (.addAddress 0xFF#8, []) := by decide

theorem test_witness_MemoryReadAfterWrite :
    Memory.wf [(0x00, 0x01#8), (0xFF, 0xFF#8)] = true ∧ Memory.wf [] = true := by decide

theorem test_witness_EqualReadsEqualMemory : Memory.wf [(0xFF, 0xFF#8)] = true ∧
    ∀ k, Memory.read [(0xFF, 0xFF#8)] k = Memory.read [(0xFF, 0xFF#8)] k := ⟨by decide, fun _ => rfl⟩

theorem test_witness_StepKeepsMemoryForm : (edge false [0x50#8, 0xFF#8]).Inv ∧
    step (edge false [0x50#8, 0xFF#8]) = .next (afterStep (edge false [0x50#8, 0xFF#8])) := ⟨by decide, rfl⟩

theorem test_witness_ResetHasMemoryForm : ({ memInit := [(0xFF, 0xFF#8)] } : Boot).memInit.wf = true := by decide

theorem test_witness_RunKeepsMapAndRom :
    Runs 2 (edgeMap false [0x50#8, 0x40#8]) (afterStep (afterStep (edgeMap false [0x50#8, 0x40#8]))) ∧
    (edgeMap false [0x50#8, 0x40#8]).kindAt 0x40#8 ≠ .ram ∧
    (edgeMap false [0x50#8, 0x40#8]).kindAt 0xFE#8 ≠ .ram := ⟨⟨_, rfl, _, rfl, rfl⟩, by decide, by decide⟩

/-- A run of STA FFh from reset: memory and trace agree before it and after it, a write and a read of ram among the
accesses. -/
theorem test_witness_StepKeepsCoherence :
    (edge false [0x50#8, 0xFF#8]).Inv ∧
    Coherent (fun x => (edge false [0x50#8, 0xFF#8]).mem.read x.toNat) (edge false [0x50#8, 0xFF#8]) ∧
    step (edge false [0x50#8, 0xFF#8]) = .next (afterStep (edge false [0x50#8, 0xFF#8])) :=
  ⟨by decide, ⟨fun _ _ => rfl, trivial⟩, rfl⟩

/-- The four stores at FEh and FFh to the address of the next instruction. -/
theorem test_witness_StoreIsSeenByTheNextFetch :
    (edge false [0x50#8, 0x01#8]).Inv ∧ Fetches (edge false [0x50#8, 0x01#8]) [0x50#8, 0x01#8] ∧
    0x01#8 = (edge false [0x50#8, 0x01#8]).ip + 2#8 ∧ (edge false [0x50#8, 0x01#8]).kindAt 0x01#8 = .ram ∧
    Fetches (edge false [0x58#8, 0x01#8]) [0x58#8, 0x01#8] ∧
    Fetches (start 0xFE#8 0xFF#8 0xFF#8 false [0x54#8]) [0x54#8] ∧
    (start 0xFE#8 0xFF#8 0xFF#8 false [0x54#8]).r = (start 0xFE#8 0xFF#8 0xFF#8 false [0x54#8]).ip + 1#8 ∧
    (start 0xFE#8 0xFF#8 0xFF#8 false [0x54#8]).kindAt 0xFF#8 = .ram ∧
    Fetches (start 0xFE#8 0xFF#8 0xFF#8 false [0x5C#8]) [0x5C#8] := by decide

theorem test_witness_FirstFetchIsAtResetIp :
    step (State.afterReset { resetIp := 0xFF#8 }) = .next (afterStep (State.afterReset { resetIp := 0xFF#8 })) := by rfl

/-- The six jumps to themselves, and one state that is not halted. -/
theorem test_witness_HaltedIffSelfJump :
    Fetches (edge false [0x20#8, 0xFF#8]) [0x20#8, (edge false [0x20#8, 0xFF#8]).ip] ∧
    (Fetches (edge false [0x23#8]) [0x23#8] ∧ (edge false [0x23#8]).r = (edge false [0x23#8]).ip) ∧
    (Fetches (edge false [0x28#8, 0xFF#8]) [0x28#8, 0xFF#8] ∧ (edge false [0x28#8, 0xFF#8]).z = false) ∧
    (Fetches (edge true [0x30#8, 0xFF#8]) [0x30#8, 0xFF#8] ∧ (edge true [0x30#8, 0xFF#8]).z = true) ∧
    (Fetches (edge false [0x2B#8]) [0x2B#8] ∧ (edge false [0x2B#8]).z = false) ∧
    (Fetches (edge true [0x33#8]) [0x33#8] ∧ (edge true [0x33#8]).z = true) ∧
    (afterStep (edge true [0x28#8, 0xFF#8])).ip ≠ (edge true [0x28#8, 0xFF#8]).ip := by decide

end Sys2Proof.Tests
end

/-! From the bytes at IP to what the step is seen to do. -/

namespace Sys2Proof.Machine

open Sys2Proof

/-! ### The bytes at IP -/

theorem fetches_two_iff {s : State} {b n : Byte} :
    Fetches s [b, n] ↔ s.cell s.ip = b ∧ s.fetchPhase.cell (s.ip + 1#8) = n := by
  simp [Fetches, State.fetchBytes]

theorem cell_of_fetches {s : State} {b : Byte} {bs : List Byte} (h : Fetches s (b :: bs)) : s.cell s.ip = b :=
  (List.cons_eq_cons.mp h).1

/-! ### The step, by the row of the listing that byte 1 stands in -/

theorem step_of_decode {s : State} {i : Instr} {rest : List Byte} (h : decode s.fetchBytes = .ok (i, rest)) :
    step s = exec i s.fetchPhase := by
  simp only [step, h]

theorem step_of_fetches_one {s : State} {b : Byte} {i : Instr} (row : lookup b rows = some (.one i))
    (h : Fetches s [b]) : step s = exec i s.fetchPhase := by
  obtain rfl := cell_of_fetches h
  exact step_of_decode (decode_one row _)

theorem step_of_fetches_two {s : State} {b n : Byte} {f : Byte → Instr} (row : lookup b rows = some (.two f))
    (h : Fetches s [b, n]) : step s = exec (f n) s.fetchPhase := by
  obtain ⟨rfl, rfl⟩ := fetches_two_iff.mp h
  exact step_of_decode (decode_two row _ _)

/-- What is left to show of a step that runs `i`: where the meaning of `i` ends, that it leaves IR alone, and the
accesses and clock cycles it adds to those of FETCH. -/
theorem stepRuns_of_exec {s t : State} {i : Instr} {b : Byte} {accesses : List Event} {clocks : Nat}
    (hstep : step s = exec i s.fetchPhase) (hb : s.cell s.ip = b) (hexec : exec i s.fetchPhase = .next t)
    (hir : t.ir = s.fetchPhase.ir) (htrace : t.trace = accesses.reverse ++ s.fetchPhase.trace)
    (hclock : t.clock = s.clock + clocks) : StepRuns s i b (.memRead s.ip b :: accesses) clocks t := by
  subst hb
  exact ⟨hstep.trans hexec, hexec, hir, by simp [htrace], hclock⟩

/-! ### IP and the frame -/

/-- FETCH and the read of byte 2 each move IP by one; the sum is of 8 bits. -/
theorem ip_add_one_add_one (p : Addr) : p + 1#8 + 1#8 = p + 2#8 := by
  rw [BitVec.add_assoc]; rfl

theorem UnchangedBut.trans {parts : List Part} {s t u : State} (hst : UnchangedBut parts s t)
    (htu : UnchangedBut parts t u) : UnchangedBut parts s u := by
  obtain ⟨ha, hr, hz, hmem, hports, hmap⟩ := hst
  obtain ⟨ha', hr', hz', hmem', hports', hmap'⟩ := htu
  exact ⟨fun h => (ha' h).trans (ha h), fun h => (hr' h).trans (hr h), fun h => (hz' h).trans (hz h),
    fun p h => (hmem' p h).trans (hmem p h), fun h => (hports' h).trans (hports h), hmap'.trans hmap⟩

/-- FETCH touches none of the parts a data instruction can change. -/
theorem fetchPhase_unchangedBut (parts : List Part) (s : State) : UnchangedBut parts s s.fetchPhase := by
  simp [UnchangedBut]

theorem takeByte2_unchangedBut (parts : List Part) (s : State) (n : Byte) :
    UnchangedBut parts s (s.takeByte2 n) := by
  simp [UnchangedBut]

theorem spend_unchangedBut (parts : List Part) (s : State) (k : Nat) : UnchangedBut parts s (s.spend k) := by
  simp [UnchangedBut]

theorem portWrite_unchangedBut (parts : List Part) (s : State) (p : Addr) (v : Byte) :
    UnchangedBut parts s (s.portWrite p v) := by
  simp [UnchangedBut]

end Sys2Proof.Machine

/-! OUT (41_input_output.md section 3). -/

namespace Sys2Proof.Machine

open Sys2Proof

theorem exec_outAddress_eq (n : Byte) (s : State) :
    exec (.outAddress n) s = .next (((s.takeByte2 n).portWrite n s.a).spend 6) := rfl

theorem exec_outP_eq (s : State) : exec .outP s = .next ((s.portWrite s.r s.a).spend 4) := rfl

/-- 41_input_output.md R93. -/
theorem step_outAddress {s : State} {n : Byte} (h : Fetches s [0x10#8, n]) :
    ∃ t, StepRuns s (.outAddress n) 0x10#8 [.memRead s.ip 0x10#8, .memRead (s.ip + 1#8) n, .portWrite n s.a] 9 t ∧
      t.ip = s.ip + 2#8 ∧ UnchangedBut [] s t := by
  refine ⟨_, stepRuns_of_exec (step_of_fetches_two rfl h) (cell_of_fetches h)
    (exec_outAddress_eq n _) ?ir ?trace ?clock, ?ip, ?frame⟩
  case ir => simp
  case trace => simp
  case clock => simp
  case ip => simp [ip_add_one_add_one]
  case frame =>
    exact (((fetchPhase_unchangedBut _ s).trans (takeByte2_unchangedBut _ _ n)).trans
      (portWrite_unchangedBut _ _ _ _)).trans (spend_unchangedBut _ _ _)

/-- 41_input_output.md R94. -/
theorem step_outP {s : State} (h : Fetches s [0x14#8]) :
    ∃ t, StepRuns s .outP 0x14#8 [.memRead s.ip 0x14#8, .portWrite s.r s.a] 7 t ∧
      t.ip = s.ip + 1#8 ∧ UnchangedBut [] s t := by
  refine ⟨_, stepRuns_of_exec (step_of_fetches_one rfl h) (cell_of_fetches h)
    (exec_outP_eq _) ?ir ?trace ?clock, ?ip, ?frame⟩
  case ir => simp
  case trace => simp
  case clock => simp
  case ip => simp
  case frame =>
    exact ((fetchPhase_unchangedBut _ s).trans (portWrite_unchangedBut _ _ _ _)).trans (spend_unchangedBut _ _ _)

/-- Settles O14: both forms of OUT, each by running its meaning on the state FETCH leaves. -/
theorem outWritesPort : Obligations.OutWritesPort :=
  ⟨fun _ _ h => step_outAddress h, fun _ h => step_outP h⟩

end Sys2Proof.Machine

/-! Program Control (42_program_control.md). -/

namespace Sys2Proof.Machine

open Sys2Proof

/-! ### The frame of what a jump and a comparison do -/

/-- What leaves more unchanged leaves less unchanged. -/
theorem UnchangedBut.mono {parts parts' : List Part} {s t : State} (hsub : parts ⊆ parts')
    (h : UnchangedBut parts s t) : UnchangedBut parts' s t := by
  obtain ⟨ha, hr, hz, hmem, hports, hmap⟩ := h
  exact ⟨fun hn => ha (mt (@hsub _) hn), fun hn => hr (mt (@hsub _) hn), fun hn => hz (mt (@hsub _) hn),
    fun p hn => hmem p (mt (@hsub _) hn), fun hn => hports (mt (@hsub _) hn), hmap⟩

theorem UnchangedBut.refl (parts : List Part) (s : State) : UnchangedBut parts s s := by
  simp [UnchangedBut]

theorem readByte2_unchangedBut (parts : List Part) (s : State) (n : Byte) :
    UnchangedBut parts s (s.readByte2 n) := by
  simp [UnchangedBut]

theorem memRead_unchangedBut (parts : List Part) (s : State) (p : Addr) :
    UnchangedBut parts s (s.memRead p).2 := by
  simp [UnchangedBut]

theorem setIp_unchangedBut (parts : List Part) (s : State) (p : Addr) : UnchangedBut parts s (s.setIp p) := by
  simp [UnchangedBut]

theorem incIp_unchangedBut (parts : List Part) (s : State) : UnchangedBut parts s s.incIp :=
  setIp_unchangedBut parts s _

theorem setZ_unchangedBut (s : State) (v : Bool) : UnchangedBut [.z] s (s.setZ v) := by
  simp [UnchangedBut]

/-! ### Jumps: each meaning is a jump under a condition, and JMP's condition is always met -/

theorem exec_jmpAddress_eq (n : Byte) (s : State) : exec (.jmpAddress n) s = jumpDirectIf true n s := rfl

theorem exec_jnzAddress_eq (n : Byte) (s : State) : exec (.jnzAddress n) s = jumpDirectIf (!s.z) n s := rfl

theorem exec_jzAddress_eq (n : Byte) (s : State) : exec (.jzAddress n) s = jumpDirectIf s.z n s := rfl

theorem exec_jmpR_eq (s : State) : exec .jmpR s = jumpRegisterIf true s := rfl

theorem exec_jnzR_eq (s : State) : exec .jnzR s = jumpRegisterIf (!s.z) s := rfl

theorem exec_jzR_eq (s : State) : exec .jzR s = jumpRegisterIf s.z s := rfl

/-- A direct jump that is taken: byte 2 is read and is the target; the cell it addresses is not read. -/
theorem step_jumpDirect_taken {s : State} {b n : Byte} {f : Byte → Instr} (row : lookup b rows = some (.two f))
    (h : Fetches s [b, n]) (hexec : exec (f n) s.fetchPhase = jumpDirectIf true n s.fetchPhase) :
    ∃ t, StepRuns s (f n) b [.memRead s.ip b, .memRead (s.ip + 1#8) n] 6 t ∧ t.ip = n ∧ UnchangedBut [] s t := by
  refine ⟨_, stepRuns_of_exec (step_of_fetches_two row h) (cell_of_fetches h)
    (hexec.trans (jumpDirectIf_eq true n _)) ?ir ?trace ?clock, ?ip, ?frame⟩
  case ir => simp
  case trace => simp
  case clock => simp
  case ip => simp
  case frame =>
    exact (((fetchPhase_unchangedBut _ s).trans (readByte2_unchangedBut _ _ n)).trans
      (setIp_unchangedBut _ _ n)).trans (spend_unchangedBut _ _ _)

/-- A direct jump that is not taken: IP moves past byte 2, which is not read. -/
theorem step_jumpDirect_notTaken {s : State} {b n : Byte} {f : Byte → Instr} (row : lookup b rows = some (.two f))
    (h : Fetches s [b, n]) (hexec : exec (f n) s.fetchPhase = jumpDirectIf false n s.fetchPhase) :
    ∃ t, StepRuns s (f n) b [.memRead s.ip b] 4 t ∧ t.ip = s.ip + 2#8 ∧ UnchangedBut [] s t := by
  refine ⟨_, stepRuns_of_exec (step_of_fetches_two row h) (cell_of_fetches h)
    (hexec.trans (jumpDirectIf_eq false n _)) ?ir ?trace ?clock, ?ip, ?frame⟩
  case ir => simp
  case trace => simp
  case clock => simp
  case ip => simp [ip_add_one_add_one]
  case frame =>
    exact ((fetchPhase_unchangedBut _ s).trans (incIp_unchangedBut _ _)).trans (spend_unchangedBut _ _ _)

/-- A register jump: only IP depends on whether it is taken. -/
theorem step_jumpRegister {s : State} {b : Byte} {i : Instr} {taken : Bool} (row : lookup b rows = some (.one i))
    (h : Fetches s [b]) (hexec : exec i s.fetchPhase = jumpRegisterIf taken s.fetchPhase) :
    ∃ t, StepRuns s i b [.memRead s.ip b] 4 t ∧ t.ip = (if taken = true then s.r else s.ip + 1#8) ∧
      UnchangedBut [] s t := by
  refine ⟨_, stepRuns_of_exec (step_of_fetches_one row h) (cell_of_fetches h)
    (hexec.trans (jumpRegisterIf_eq taken _)) ?ir ?trace ?clock, ?ip, ?frame⟩
  case ir => cases taken <;> simp
  case trace => cases taken <;> simp
  case clock => cases taken <;> simp
  case ip => cases taken <;> simp
  case frame =>
    refine (fetchPhase_unchangedBut _ s).trans ?_
    cases taken with
    | false => exact spend_unchangedBut _ _ _
    | true => exact (setIp_unchangedBut _ _ _).trans (spend_unchangedBut _ _ _)

/-- Settles O15: JMP is a jump that is always taken. -/
theorem jmpLoadsIp : Obligations.JmpLoadsIp :=
  ⟨fun _ n h => step_jumpDirect_taken rfl h (exec_jmpAddress_eq n _),
   fun _ h => step_jumpRegister rfl h (exec_jmpR_eq _)⟩

/-- Settles O16: JNZ is a jump taken when Z, which FETCH leaves alone, is 0. -/
theorem jnzJumpsWhenZClear : Obligations.JnzJumpsWhenZClear := by
  refine ⟨fun s n h hz => ?taken, fun s n h hz => ?notTaken, fun s h => ?register⟩
  case taken => exact step_jumpDirect_taken rfl h (by simp [exec_jnzAddress_eq, hz])
  case notTaken => exact step_jumpDirect_notTaken rfl h (by simp [exec_jnzAddress_eq, hz])
  case register => simpa only [Bool.not_eq_true', State.fetchPhase_z] using
    step_jumpRegister rfl h (exec_jnzR_eq s.fetchPhase)

/-- Settles O17: JZ is a jump taken when Z, which FETCH leaves alone, is 1. -/
theorem jzJumpsWhenZSet : Obligations.JzJumpsWhenZSet := by
  refine ⟨fun s n h hz => ?taken, fun s n h hz => ?notTaken, fun s h => ?register⟩
  case taken => exact step_jumpDirect_taken rfl h (by simp [exec_jzAddress_eq, hz])
  case notTaken => exact step_jumpDirect_notTaken rfl h (by simp [exec_jzAddress_eq, hz])
  case register => exact step_jumpRegister rfl h (exec_jzR_eq s.fetchPhase)

/-! ### Reading an operand -/

/-- Reading an operand from `s` gave `o`: the value, and a state in which `accesses` have been made, IP has become `ip`,
and nothing else has changed. -/
structure OperandRead (s : State) (o : Byte × State) (accesses : List Event) (ip : Addr) : Prop where
  ip_eq : o.2.ip = ip
  ir_eq : o.2.ir = s.ir
  trace_eq : o.2.trace = accesses.reverse ++ s.trace
  clock_eq : o.2.clock = s.clock
  frame : UnchangedBut [] s o.2

theorem operandRead_direct (n : Byte) (s : State) :
    OperandRead s (operandDirect n s) [.memRead s.ip n, .memRead n (operandDirect n s).1] (s.ip + 1#8) where
  ip_eq := by simp
  ir_eq := by simp
  trace_eq := by simp
  clock_eq := by simp
  frame := (takeByte2_unchangedBut _ s n).trans (memRead_unchangedBut _ _ n)

theorem operandRead_indirect (s : State) :
    OperandRead s (operandIndirect s) [.memRead s.r (operandIndirect s).1] s.ip where
  ip_eq := by simp
  ir_eq := by simp
  trace_eq := by simp
  clock_eq := by simp
  frame := memRead_unchangedBut _ s _

theorem operandRead_immediate (n : Byte) (s : State) :
    OperandRead s (operandImmediate n s) [.memRead s.ip n] (s.ip + 1#8) where
  ip_eq := by simp
  ir_eq := by simp
  trace_eq := by simp
  clock_eq := by simp
  frame := takeByte2_unchangedBut _ s n

/-- A register operand is read without an access. -/
theorem operandRead_register (s : State) (v : Byte) : OperandRead s (v, s) [] s.ip :=
  ⟨rfl, rfl, rfl, rfl, UnchangedBut.refl _ s⟩

/-- A read made in the course of the step from `s`, before any store, gives what the cell held in `s`. -/
theorem readsCell_of_unchangedBut {s t : State} (h : UnchangedBut [] s t) (p : Addr) : ReadsCell s p (t.cell p) := by
  obtain ⟨-, -, -, hmem, -, hmap⟩ := h
  intro hfitted
  have hkind : t.kindAt p = s.kindAt p := by simp only [State.kindAt, hmap]
  exact (State.cell_of_fitted (hkind.trans_ne hfitted)).trans (hmem _ List.not_mem_nil)

theorem readsCell_operandDirect (n : Byte) (s : State) : ReadsCell s n (operandDirect n s.fetchPhase).1 :=
  readsCell_of_unchangedBut ((fetchPhase_unchangedBut _ s).trans (takeByte2_unchangedBut _ _ n)) n

theorem readsCell_operandIndirect (s : State) : ReadsCell s s.r (operandIndirect s.fetchPhase).1 :=
  readsCell_of_unchangedBut (fetchPhase_unchangedBut _ s) s.r

/-! ### Comparisons: in every mode CMP reads its operand and writes into Z whether A equals it -/

theorem exec_cmpAddress_eq (n : Byte) (s : State) : exec (.cmpAddress n) s = compareWith (operandDirect n s) 9 := rfl

theorem exec_cmpR_eq (s : State) : exec .cmpR s = compareWith (operandR s) 4 := rfl

theorem exec_cmpM_eq (s : State) : exec .cmpM s = compareWith (operandIndirect s) 7 := rfl

theorem exec_cmpImm_eq (n : Byte) (s : State) : exec (.cmpImm n) s = compareWith (operandImmediate n s) 6 := rfl

/-- CMP A, whose meaning sets Z outright, compares A with itself. -/
theorem exec_cmpA_eq (s : State) : exec .cmpA s = compareWith (operandA s) 4 := by
  have hself : compareZ s.a s.a = true := compareZ_eq_true.mpr rfl
  rw [compareWith_eq, operandA_eq, hself]
  rfl

/-- A step that compares takes the accesses of its operand after the opcode fetch, and ends where the operand's bytes
end. Its clock cycles are the three of FETCH and the rest of its figure. -/
theorem step_compareWith {s : State} {i : Instr} {b : Byte} {o : Byte × State} {accesses : List Event} {ip : Addr}
    {extra : Nat} (hstep : step s = exec i s.fetchPhase) (hb : s.cell s.ip = b)
    (hexec : exec i s.fetchPhase = compareWith o (3 + extra)) (hread : OperandRead s.fetchPhase o accesses ip) :
    ∃ t, StepRuns s i b (.memRead s.ip b :: accesses) (3 + extra) t ∧ (t.z = true ↔ s.a = o.1) ∧ t.ip = ip ∧
      UnchangedBut [.z] s t := by
  have hframe : UnchangedBut [] s o.2 := (fetchPhase_unchangedBut _ s).trans hread.frame
  have ha : o.2.a = s.a := by
    obtain ⟨ha, -⟩ := hframe
    exact ha List.not_mem_nil
  refine ⟨_, stepRuns_of_exec hstep hb (hexec.trans (compareWith_eq o _)) ?ir ?trace ?clock, ?z, ?ip, ?frame⟩
  case ir => exact hread.ir_eq
  case trace => exact hread.trace_eq
  case clock => simp [hread.clock_eq, Nat.add_assoc]
  case z => simp [compareZ_eq_true, ha]
  case ip => exact hread.ip_eq
  case frame =>
    exact ((hframe.mono (List.nil_subset _)).trans (setZ_unchangedBut _ _)).trans (spend_unchangedBut _ _ _)

/-- 42_program_control.md R107. -/
theorem step_cmpAddress {s : State} {n : Byte} (h : Fetches s [0x38#8, n]) :
    ∃ v t, ReadsCell s n v ∧
      StepRuns s (.cmpAddress n) 0x38#8 [.memRead s.ip 0x38#8, .memRead (s.ip + 1#8) n, .memRead n v] 9 t ∧
      (t.z = true ↔ s.a = v) ∧ t.ip = s.ip + 2#8 ∧ UnchangedBut [.z] s t := by
  obtain ⟨t, hruns, hz, hip, hframe⟩ := step_compareWith (extra := 6) (step_of_fetches_two rfl h) (cell_of_fetches h)
    (exec_cmpAddress_eq n _) (operandRead_direct n _)
  exact ⟨_, t, readsCell_operandDirect n s, hruns, hz, hip.trans (ip_add_one_add_one s.ip), hframe⟩

/-- 42_program_control.md R108. -/
theorem step_cmpA {s : State} (h : Fetches s [0x3A#8]) :
    ∃ t, StepRuns s .cmpA 0x3A#8 [.memRead s.ip 0x3A#8] 4 t ∧
      t.z = true ∧ t.ip = s.ip + 1#8 ∧ UnchangedBut [.z] s t := by
  obtain ⟨t, hruns, hz, hip, hframe⟩ := step_compareWith (extra := 1) (step_of_fetches_one rfl h) (cell_of_fetches h)
    (exec_cmpA_eq _) (operandRead_register _ _)
  exact ⟨t, hruns, hz.mpr rfl, hip, hframe⟩

/-- 42_program_control.md R109. -/
theorem step_cmpR {s : State} (h : Fetches s [0x3B#8]) :
    ∃ t, StepRuns s .cmpR 0x3B#8 [.memRead s.ip 0x3B#8] 4 t ∧
      (t.z = true ↔ s.a = s.r) ∧ t.ip = s.ip + 1#8 ∧ UnchangedBut [.z] s t :=
  step_compareWith (extra := 1) (step_of_fetches_one rfl h) (cell_of_fetches h) (exec_cmpR_eq _)
    (operandRead_register _ _)

/-- 42_program_control.md R110. -/
theorem step_cmpM {s : State} (h : Fetches s [0x3C#8]) :
    ∃ v t, ReadsCell s s.r v ∧ StepRuns s .cmpM 0x3C#8 [.memRead s.ip 0x3C#8, .memRead s.r v] 7 t ∧
      (t.z = true ↔ s.a = v) ∧ t.ip = s.ip + 1#8 ∧ UnchangedBut [.z] s t := by
  obtain ⟨t, hrun⟩ := step_compareWith (extra := 4) (step_of_fetches_one rfl h) (cell_of_fetches h)
    (exec_cmpM_eq _) (operandRead_indirect _)
  exact ⟨_, t, readsCell_operandIndirect s, hrun⟩

/-- 42_program_control.md R111. -/
theorem step_cmpImm {s : State} {n : Byte} (h : Fetches s [0x3E#8, n]) :
    ∃ t, StepRuns s (.cmpImm n) 0x3E#8 [.memRead s.ip 0x3E#8, .memRead (s.ip + 1#8) n] 6 t ∧
      (t.z = true ↔ s.a = n) ∧ t.ip = s.ip + 2#8 ∧ UnchangedBut [.z] s t := by
  obtain ⟨t, hruns, hz, hip, hframe⟩ := step_compareWith (extra := 3) (step_of_fetches_two rfl h) (cell_of_fetches h)
    (exec_cmpImm_eq n _) (operandRead_immediate n _)
  exact ⟨t, hruns, hz, hip.trans (ip_add_one_add_one s.ip), hframe⟩

/-- Settles O18: the five modes, each the comparison with its operand. -/
theorem cmpWritesZ : Obligations.CmpWritesZ :=
  ⟨fun _ _ h => step_cmpAddress h, fun _ h => step_cmpA h, fun _ h => step_cmpR h, fun _ h => step_cmpM h,
   fun _ _ h => step_cmpImm h⟩

end Sys2Proof.Machine

/-! LDA and LDR (43_data_transfer.md sections 2 and 3). -/

namespace Sys2Proof.Machine

open Sys2Proof

/-! ### The two registers a data instruction can write -/

/-- A or R, as what an instruction writes: LDA and LDR differ in nothing else. -/
inductive Register where
  | a
  | r

def Register.get : Register → State → Byte
  | .a, s => s.a
  | .r, s => s.r

def Register.set : Register → State → Byte → State
  | .a, s, v => s.setA v
  | .r, s, v => s.setR v

/-- The register as a part of the state that a frame can name. -/
def Register.part : Register → Part
  | .a => .a
  | .r => .r

/-- `loadA` or `loadR`. -/
def Register.load : Register → Byte × State → Nat → Result
  | .a => loadA
  | .r => loadR

@[simp] theorem Register.get_set (d : Register) (s : State) (v : Byte) : d.get (d.set s v) = v := by
  cases d <;> rfl

@[simp] theorem Register.get_spend (d : Register) (s : State) (k : Nat) : d.get (s.spend k) = d.get s := by
  cases d <;> rfl

@[simp] theorem Register.set_ip (d : Register) (s : State) (v : Byte) : (d.set s v).ip = s.ip := by
  cases d <;> rfl

@[simp] theorem Register.set_ir (d : Register) (s : State) (v : Byte) : (d.set s v).ir = s.ir := by
  cases d <;> rfl

@[simp] theorem Register.set_trace (d : Register) (s : State) (v : Byte) : (d.set s v).trace = s.trace := by
  cases d <;> rfl

@[simp] theorem Register.set_clock (d : Register) (s : State) (v : Byte) : (d.set s v).clock = s.clock := by
  cases d <;> rfl

theorem Register.set_unchangedBut (d : Register) (s : State) (v : Byte) : UnchangedBut [d.part] s (d.set s v) := by
  cases d with
  | a => simp [UnchangedBut, Register.set, Register.part]
  | r => simp [UnchangedBut, Register.set, Register.part]

theorem Register.load_eq (d : Register) (o : Byte × State) (k : Nat) :
    d.load o k = .next ((d.set o.2 o.1).spend (k - 3)) := by
  cases d with
  | a => exact loadA_eq o k
  | r => exact loadR_eq o k

/-! ### A step that writes one register, and one that writes none -/

/-- A step that reads an operand and writes a register takes the operand's accesses after the opcode fetch, and ends
where the operand's bytes end. Its clock cycles are the three of FETCH and the rest of its figure. -/
theorem step_setRegister (d : Register) {s : State} {i : Instr} {b v : Byte} {o : Byte × State}
    {accesses : List Event} {ip : Addr} {extra : Nat} (hstep : step s = exec i s.fetchPhase) (hb : s.cell s.ip = b)
    (hexec : exec i s.fetchPhase = .next ((d.set o.2 v).spend extra))
    (hread : OperandRead s.fetchPhase o accesses ip) :
    ∃ t, StepRuns s i b (.memRead s.ip b :: accesses) (3 + extra) t ∧ d.get t = v ∧ t.ip = ip ∧
      UnchangedBut [d.part] s t := by
  have hframe : UnchangedBut [] s o.2 := (fetchPhase_unchangedBut _ s).trans hread.frame
  refine ⟨_, stepRuns_of_exec hstep hb hexec ?ir ?trace ?clock, ?value, ?ip, ?frame⟩
  case ir => simpa using hread.ir_eq
  case trace => simpa using hread.trace_eq
  case clock => simp [hread.clock_eq, Nat.add_assoc]
  case value => simp
  case ip => simpa using hread.ip_eq
  case frame =>
    exact ((hframe.mono (List.nil_subset _)).trans (d.set_unchangedBut _ v)).trans (spend_unchangedBut _ _ _)

/-- A one-byte instruction that only lets clock cycles pass moves IP past its byte and changes nothing else. -/
theorem step_onlySpends {s : State} {i : Instr} {b : Byte} {extra : Nat} (row : lookup b rows = some (.one i))
    (h : Fetches s [b]) (hexec : exec i s.fetchPhase = .next (s.fetchPhase.spend extra)) :
    ∃ t, StepRuns s i b [.memRead s.ip b] (3 + extra) t ∧ t.ip = s.ip + 1#8 ∧ UnchangedBut [] s t := by
  refine ⟨_, stepRuns_of_exec (step_of_fetches_one row h) (cell_of_fetches h) hexec ?ir ?trace ?clock, ?ip, ?frame⟩
  case ir => simp
  case trace => simp
  case clock => simp [Nat.add_assoc]
  case ip => simp
  case frame => exact (fetchPhase_unchangedBut _ s).trans (spend_unchangedBut _ _ _)

/-! ### A load into either register, by the mode of its operand -/

theorem step_load_direct (d : Register) {s : State} {b n : Byte} {f : Byte → Instr}
    (row : lookup b rows = some (.two f)) (h : Fetches s [b, n])
    (hexec : exec (f n) s.fetchPhase = d.load (operandDirect n s.fetchPhase) 9) :
    ∃ v t, ReadsCell s n v ∧
      StepRuns s (f n) b [.memRead s.ip b, .memRead (s.ip + 1#8) n, .memRead n v] 9 t ∧
      d.get t = v ∧ t.ip = s.ip + 2#8 ∧ UnchangedBut [d.part] s t := by
  obtain ⟨t, hruns, hvalue, hip, hframe⟩ := step_setRegister d (step_of_fetches_two row h) (cell_of_fetches h)
    (hexec.trans (d.load_eq _ _)) (operandRead_direct n _)
  exact ⟨_, t, readsCell_operandDirect n s, hruns, hvalue, hip.trans (ip_add_one_add_one s.ip), hframe⟩

/-- The operand `v` is at hand in a register, so FETCH makes the only access. -/
theorem step_load_register (d : Register) {s : State} {b v : Byte} {i : Instr} (row : lookup b rows = some (.one i))
    (h : Fetches s [b]) (hexec : exec i s.fetchPhase = d.load (v, s.fetchPhase) 4) :
    ∃ t, StepRuns s i b [.memRead s.ip b] 4 t ∧ d.get t = v ∧ t.ip = s.ip + 1#8 ∧ UnchangedBut [d.part] s t :=
  step_setRegister d (step_of_fetches_one row h) (cell_of_fetches h) (hexec.trans (d.load_eq _ _))
    (operandRead_register _ v)

/-- The address is what R held before the step, also where R is what is loaded. -/
theorem step_load_indirect (d : Register) {s : State} {b : Byte} {i : Instr} (row : lookup b rows = some (.one i))
    (h : Fetches s [b]) (hexec : exec i s.fetchPhase = d.load (operandIndirect s.fetchPhase) 7) :
    ∃ v t, ReadsCell s s.r v ∧ StepRuns s i b [.memRead s.ip b, .memRead s.r v] 7 t ∧
      d.get t = v ∧ t.ip = s.ip + 1#8 ∧ UnchangedBut [d.part] s t := by
  obtain ⟨t, hload⟩ := step_setRegister d (step_of_fetches_one row h) (cell_of_fetches h)
    (hexec.trans (d.load_eq _ _)) (operandRead_indirect _)
  exact ⟨_, t, readsCell_operandIndirect s, hload⟩

theorem step_load_immediate (d : Register) {s : State} {b n : Byte} {f : Byte → Instr}
    (row : lookup b rows = some (.two f)) (h : Fetches s [b, n])
    (hexec : exec (f n) s.fetchPhase = d.load (operandImmediate n s.fetchPhase) 6) :
    ∃ t, StepRuns s (f n) b [.memRead s.ip b, .memRead (s.ip + 1#8) n] 6 t ∧
      d.get t = n ∧ t.ip = s.ip + 2#8 ∧ UnchangedBut [d.part] s t := by
  obtain ⟨t, hruns, hvalue, hip, hframe⟩ := step_setRegister d (step_of_fetches_two row h) (cell_of_fetches h)
    (hexec.trans (d.load_eq _ _)) (operandRead_immediate n _)
  exact ⟨t, hruns, hvalue, hip.trans (ip_add_one_add_one s.ip), hframe⟩

/-! ### LDA -/

theorem exec_ldaAddress_eq (n : Byte) (s : State) : exec (.ldaAddress n) s = loadA (operandDirect n s) 9 := rfl

theorem exec_ldaA_eq (s : State) : exec .ldaA s = .next (s.spend 1) := rfl

theorem exec_ldaR_eq (s : State) : exec .ldaR s = loadA (operandR s) 4 := rfl

theorem exec_ldaM_eq (s : State) : exec .ldaM s = loadA (operandIndirect s) 7 := rfl

theorem exec_ldaImm_eq (n : Byte) (s : State) : exec (.ldaImm n) s = loadA (operandImmediate n s) 6 := rfl

/-- Settles O20: four modes load A with their operand, and LDA A (R122) only spends a clock cycle after FETCH. -/
theorem ldaLoadsA : Obligations.LdaLoadsA :=
  ⟨fun _ n h => step_load_direct .a rfl h (exec_ldaAddress_eq n _),
   fun _ h => step_onlySpends rfl h (exec_ldaA_eq _),
   fun _ h => step_load_register .a rfl h (exec_ldaR_eq _),
   fun _ h => step_load_indirect .a rfl h (exec_ldaM_eq _),
   fun _ n h => step_load_immediate .a rfl h (exec_ldaImm_eq n _)⟩

/-! ### LDR -/

theorem exec_ldrAddress_eq (n : Byte) (s : State) : exec (.ldrAddress n) s = loadR (operandDirect n s) 9 := rfl

theorem exec_ldrA_eq (s : State) : exec .ldrA s = loadR (operandA s) 4 := rfl

theorem exec_ldrR_eq (s : State) : exec .ldrR s = .next (s.spend 1) := rfl

theorem exec_ldrM_eq (s : State) : exec .ldrM s = loadR (operandIndirect s) 7 := rfl

theorem exec_ldrImm_eq (n : Byte) (s : State) : exec (.ldrImm n) s = loadR (operandImmediate n s) 6 := rfl

/-- Settles O21: four modes load R with their operand, and LDR R (R128) only spends a clock cycle after FETCH. -/
theorem ldrLoadsR : Obligations.LdrLoadsR :=
  ⟨fun _ n h => step_load_direct .r rfl h (exec_ldrAddress_eq n _),
   fun _ h => step_load_register .r rfl h (exec_ldrA_eq _),
   fun _ h => step_onlySpends rfl h (exec_ldrR_eq _),
   fun _ h => step_load_indirect .r rfl h (exec_ldrM_eq _),
   fun _ n h => step_load_immediate .r rfl h (exec_ldrImm_eq n _)⟩

end Sys2Proof.Machine

/-! OR, INV and SHL (45_logical.md). -/

namespace Sys2Proof.Machine

open Sys2Proof

/-! ### A step that leaves the result of an operation in A, by the mode of its operand -/

/-- `op`, run on an operand, writes A alone, with a value that `post` relates to the old A and the operand. -/
def LeavesInA (op : Byte × State → Nat → Result) (post : Byte → Byte → Byte → Prop) : Prop :=
  ∀ o figure, ∃ w, post o.2.a o.1 w ∧ op o figure = .next ((o.2.setA w).spend (figure - 3))

section Modes

variable {op : Byte × State → Nat → Result} {post : Byte → Byte → Byte → Prop} {s : State} {b n : Byte}
  {f : Byte → Instr} {i : Instr} {extra : Nat}

/-- Reading the operand leaves A alone, so the old A that `post` speaks of is A before the step. -/
theorem step_leavesInA {o : Byte × State} {accesses : List Event} {ip : Addr} (hop : LeavesInA op post)
    (hstep : step s = exec i s.fetchPhase) (hb : s.cell s.ip = b) (hexec : exec i s.fetchPhase = op o (3 + extra))
    (hread : OperandRead s.fetchPhase o accesses ip) :
    ∃ t, StepRuns s i b (.memRead s.ip b :: accesses) (3 + extra) t ∧ post s.a o.1 t.a ∧ t.ip = ip ∧
      UnchangedBut [.a] s t := by
  obtain ⟨w, hpost, hop⟩ := hop o (3 + extra)
  have ha : o.2.a = s.a := by
    obtain ⟨ha, -⟩ := hread.frame
    exact ha List.not_mem_nil
  rw [ha] at hpost
  rw [Nat.add_sub_cancel_left] at hop
  obtain ⟨t, hruns, rfl, hrest⟩ := step_setRegister .a hstep hb (hexec.trans hop) hread
  exact ⟨t, hruns, hpost, hrest⟩

theorem step_leavesInA_direct (hop : LeavesInA op post) (row : lookup b rows = some (.two f)) (h : Fetches s [b, n])
    (hexec : exec (f n) s.fetchPhase = op (operandDirect n s.fetchPhase) (3 + extra)) :
    ∃ v t, ReadsCell s n v ∧
      StepRuns s (f n) b [.memRead s.ip b, .memRead (s.ip + 1#8) n, .memRead n v] (3 + extra) t ∧
      post s.a v t.a ∧ t.ip = s.ip + 2#8 ∧ UnchangedBut [.a] s t := by
  obtain ⟨t, hruns, hpost, hip, hframe⟩ := step_leavesInA hop (step_of_fetches_two row h) (cell_of_fetches h) hexec
    (operandRead_direct n _)
  exact ⟨_, t, readsCell_operandDirect n s, hruns, hpost, hip.trans (ip_add_one_add_one s.ip), hframe⟩

/-- The operand `v` is at hand in a register, so FETCH makes the only access. -/
theorem step_leavesInA_register {v : Byte} (hop : LeavesInA op post) (row : lookup b rows = some (.one i))
    (h : Fetches s [b]) (hexec : exec i s.fetchPhase = op (v, s.fetchPhase) (3 + extra)) :
    ∃ t, StepRuns s i b [.memRead s.ip b] (3 + extra) t ∧ post s.a v t.a ∧ t.ip = s.ip + 1#8 ∧
      UnchangedBut [.a] s t :=
  step_leavesInA hop (step_of_fetches_one row h) (cell_of_fetches h) hexec (operandRead_register _ v)

theorem step_leavesInA_indirect (hop : LeavesInA op post) (row : lookup b rows = some (.one i)) (h : Fetches s [b])
    (hexec : exec i s.fetchPhase = op (operandIndirect s.fetchPhase) (3 + extra)) :
    ∃ v t, ReadsCell s s.r v ∧ StepRuns s i b [.memRead s.ip b, .memRead s.r v] (3 + extra) t ∧
      post s.a v t.a ∧ t.ip = s.ip + 1#8 ∧ UnchangedBut [.a] s t := by
  obtain ⟨t, hrun⟩ := step_leavesInA hop (step_of_fetches_one row h) (cell_of_fetches h) hexec (operandRead_indirect _)
  exact ⟨_, t, readsCell_operandIndirect s, hrun⟩

theorem step_leavesInA_immediate (hop : LeavesInA op post) (row : lookup b rows = some (.two f))
    (h : Fetches s [b, n]) (hexec : exec (f n) s.fetchPhase = op (operandImmediate n s.fetchPhase) (3 + extra)) :
    ∃ t, StepRuns s (f n) b [.memRead s.ip b, .memRead (s.ip + 1#8) n] (3 + extra) t ∧
      post s.a n t.a ∧ t.ip = s.ip + 2#8 ∧ UnchangedBut [.a] s t := by
  obtain ⟨t, hruns, hpost, hip, hframe⟩ := step_leavesInA hop (step_of_fetches_two row h) (cell_of_fetches h) hexec
    (operandRead_immediate n _)
  exact ⟨t, hruns, hpost, hip.trans (ip_add_one_add_one s.ip), hframe⟩

/-- Conflict C5: an instruction whose operand and result are in R leaves the result in A as well. -/
theorem step_setBoth {w : Byte} {result : Byte → Byte → Prop} (row : lookup b rows = some (.one i))
    (h : Fetches s [b]) (hexec : exec i s.fetchPhase = .next (((s.fetchPhase.setA w).setR w).spend extra))
    (hw : result s.r w) :
    ∃ t, StepRuns s i b [.memRead s.ip b] (3 + extra) t ∧ result s.r t.r ∧ t.a = t.r ∧ t.ip = s.ip + 1#8 ∧
      UnchangedBut [.a, .r] s t := by
  refine ⟨_, stepRuns_of_exec (step_of_fetches_one row h) (cell_of_fetches h) hexec ?ir ?trace ?clock, ?r, ?a, ?ip,
    ?frame⟩
  case ir => simp
  case trace => simp
  case clock => simp [Nat.add_assoc]
  case r => simpa using hw
  case a => simp
  case ip => simp
  case frame =>
    have hA : UnchangedBut [.a, .r] s.fetchPhase (s.fetchPhase.setA w) :=
      (Register.a.set_unchangedBut _ w).mono (by simp [Register.part])
    have hR : UnchangedBut [.a, .r] (s.fetchPhase.setA w) ((s.fetchPhase.setA w).setR w) :=
      (Register.r.set_unchangedBut _ w).mono (by simp [Register.part])
    exact (((fetchPhase_unchangedBut _ s).trans hA).trans hR).trans (spend_unchangedBut _ _ _)

end Modes

/-! ### What each operation leaves in A -/

/-- Every bit of `w` is the inverse of that bit of `v`. -/
def Inverted (v w : Byte) : Prop := ∀ k, k < 8 → w.getLsbD k = !v.getLsbD k

theorem inverted_not (v : Byte) : Inverted v (~~~v) := by
  intro k hk
  simp [hk]

theorem shiftedLeft_shl8 (v : Byte) : ShiftedLeft v (shl8 v) := by
  rw [shl8_eq]
  refine ⟨fun k hk => ?upper, ?lowest⟩
  case upper =>
    have hk8 : k + 1 < 8 := by omega
    rw [BitVec.getLsbD_shiftLeft]
    simp [hk8]
  case lowest => simp

theorem orTo_leavesInA : LeavesInA orTo fun a v w => w = a ||| v :=
  fun o k => ⟨_, rfl, orTo_eq o k⟩

theorem invTo_leavesInA : LeavesInA invTo fun _ => Inverted :=
  fun o k => ⟨_, inverted_not o.1, invTo_eq o k⟩

theorem shlTo_leavesInA : LeavesInA shlTo fun _ => ShiftedLeft :=
  fun o k => ⟨_, shiftedLeft_shl8 o.1, shlTo_eq o k⟩

/-! ### OR -/

theorem exec_orAddress_eq (n : Byte) (s : State) : exec (.orAddress n) s = orTo (operandDirect n s) 9 := rfl

theorem exec_orR_eq (s : State) : exec .orR s = orTo (operandR s) 4 := rfl

theorem exec_orM_eq (s : State) : exec .orM s = orTo (operandIndirect s) 7 := rfl

theorem exec_orImm_eq (n : Byte) (s : State) : exec (.orImm n) s = orTo (operandImmediate n s) 6 := rfl

/-- `A OR A` is A, so OR A writes back the A it finds. -/
theorem exec_orA_eq (s : State) : exec .orA s = .next (s.spend 1) := by
  have horTo : exec .orA s = orTo (operandA s) 4 := rfl
  rw [horTo, orTo_eq, operandA_eq, BitVec.or_self]
  rfl

/-- Settles O29: four modes leave in A the OR of A and their operand, and OR A (R182) only spends a clock cycle after
FETCH. -/
theorem orIsBitwiseOr : Obligations.OrIsBitwiseOr :=
  ⟨fun _ n h => step_leavesInA_direct (extra := 6) orTo_leavesInA rfl h (exec_orAddress_eq n _),
   fun _ h => step_onlySpends rfl h (exec_orA_eq _),
   fun _ h => step_leavesInA_register (extra := 1) orTo_leavesInA rfl h (exec_orR_eq _),
   fun _ h => step_leavesInA_indirect (extra := 4) orTo_leavesInA rfl h (exec_orM_eq _),
   fun _ n h => step_leavesInA_immediate (extra := 3) orTo_leavesInA rfl h (exec_orImm_eq n _)⟩

/-! ### INV -/

theorem exec_invAddress_eq (n : Byte) (s : State) : exec (.invAddress n) s = invTo (operandDirect n s) 9 := rfl

theorem exec_invA_eq (s : State) : exec .invA s = invTo (operandA s) 4 := rfl

theorem exec_invR_eq (s : State) : exec .invR s = .next (((s.setA (~~~s.r)).setR (~~~s.r)).spend 2) := rfl

theorem exec_invM_eq (s : State) : exec .invM s = invTo (operandIndirect s) 7 := rfl

theorem exec_invImm_eq (n : Byte) (s : State) : exec (.invImm n) s = invTo (operandImmediate n s) 6 := rfl

/-- Settles O30: four modes leave the inverse of their operand in A, and INV R leaves it in both registers. -/
theorem invIsBitwiseComplement : Obligations.InvIsBitwiseComplement :=
  ⟨fun _ n h => step_leavesInA_direct (extra := 6) invTo_leavesInA rfl h (exec_invAddress_eq n _),
   fun _ h => step_leavesInA_register (extra := 1) invTo_leavesInA rfl h (exec_invA_eq _),
   fun s h => step_setBoth rfl h (exec_invR_eq _) (inverted_not s.r),
   fun _ h => step_leavesInA_indirect (extra := 4) invTo_leavesInA rfl h (exec_invM_eq _),
   fun _ n h => step_leavesInA_immediate (extra := 3) invTo_leavesInA rfl h (exec_invImm_eq n _)⟩

/-! ### SHL -/

theorem exec_shlAddress_eq (n : Byte) (s : State) : exec (.shlAddress n) s = shlTo (operandDirect n s) 11 := rfl

theorem exec_shlA_eq (s : State) : exec .shlA s = shlTo (operandA s) 4 := rfl

theorem exec_shlR_eq (s : State) : exec .shlR s = .next (((s.setA (shl8 s.r)).setR (shl8 s.r)).spend 4) := rfl

theorem exec_shlM_eq (s : State) : exec .shlM s = shlTo (operandIndirect s) 9 := rfl

theorem exec_shlImm_eq (n : Byte) (s : State) : exec (.shlImm n) s = shlTo (operandImmediate n s) 8 := rfl

/-- Settles O31: four modes leave their operand, shifted, in A, and SHL R leaves it in both registers. -/
theorem shlShiftsLeftByOne : Obligations.ShlShiftsLeftByOne :=
  ⟨fun _ n h => step_leavesInA_direct (extra := 8) shlTo_leavesInA rfl h (exec_shlAddress_eq n _),
   fun _ h => step_leavesInA_register (extra := 1) shlTo_leavesInA rfl h (exec_shlA_eq _),
   fun s h => step_setBoth rfl h (exec_shlR_eq _) (shiftedLeft_shl8 s.r),
   fun _ h => step_leavesInA_indirect (extra := 6) shlTo_leavesInA rfl h (exec_shlM_eq _),
   fun _ n h => step_leavesInA_immediate (extra := 5) shlTo_leavesInA rfl h (exec_shlImm_eq n _)⟩

end Sys2Proof.Machine

/-! Encoding (30_encoding.md): each instruction stands in exactly the row of the listing that its encoding names. -/

namespace Sys2Proof

/-! ### The listing R68 against the field tables R62 and R63 -/

/-- What a row of the listing says of the encoding: byte 1 as the field tables give it, and byte 2 where the row takes
one. -/
def Row.Encoded (row : Row) : Prop :=
  match row.entry with
  | .one i => encode i = [row.byte1]
  | .two f => ∀ n, encode (f n) = [row.byte1, n]

theorem rows_encoded : ∀ row ∈ rows, row.Encoded := by
  simp only [rows, rowsInputOutput, rowsProgramControl, rowsDataTransfer, rowsArithmetic, rowsLogical,
    List.forall_mem_append, List.forall_mem_cons, List.not_mem_nil, false_imp_iff, implies_true, and_true]
  repeat' apply And.intro
  all_goals
    simp only [Row.Encoded]
    intros
    rfl

theorem encode_of_lookup_one {b : Byte} {i : Instr} (h : lookup b rows = some (.one i)) : encode i = [b] :=
  rows_encoded _ (lookup_mem h)

theorem encode_of_lookup_two {b : Byte} {f : Byte → Instr} (h : lookup b rows = some (.two f)) (n : Byte) :
    encode (f n) = [b, n] :=
  rows_encoded _ (lookup_mem h) n

/-- The other direction: every instruction stands in the row of its byte 1. -/
theorem lookup_of_encode (i : Instr) :
    (∃ b, encode i = [b] ∧ lookup b rows = some (.one i)) ∨
    (∃ b n f, encode i = [b, n] ∧ lookup b rows = some (.two f) ∧ i = f n) := by
  cases i
  case fetch | inP | outP | jmpR | jnzR | jzR | cmpA | cmpR | cmpM | ldaA | ldaR | ldaM | ldrA | ldrR | ldrM | staM |
      strM | addA | addR | addM | subA | subR | subM | decA | decR | decM | orA | orR | orM | invA | invR | invM |
      shlA | shlR | shlM =>
    exact .inl ⟨_, rfl, rfl⟩
  all_goals exact .inr ⟨_, _, _, rfl, rfl, rfl⟩

/-- A first byte without a row begins the encoding of no instruction, and only such a byte does. -/
theorem lookup_eq_none_iff {b : Byte} : lookup b rows = none ↔ ∀ i : Instr, (encode i).head? ≠ some b := by
  constructor
  · rintro hnone i hhead
    obtain ⟨c, henc, hrow⟩ | ⟨c, n, f, henc, hrow, -⟩ := lookup_of_encode i
    all_goals
      obtain rfl : c = b := by simpa [henc] using hhead
      simp [hrow] at hnone
  · intro hno
    rcases hrow : lookup b rows with _ | (i | f)
    · rfl
    · exact absurd (by simp [encode_of_lookup_one hrow]) (hno i)
    · exact absurd (by simp [encode_of_lookup_two hrow]) (hno (f b))

theorem instr_wellFormed (i : Instr) : i.WellFormed := by
  cases i <;> rfl

/-! ### The statements on the decoder and the encoder -/

/-- Settles O1: the decoder finds the row that the encoding names. -/
theorem decodeOfEncode : Obligations.DecodeOfEncode := by
  intro i rest _
  obtain ⟨b, henc, hrow⟩ | ⟨b, n, f, henc, hrow, rfl⟩ := lookup_of_encode i
  · rw [henc]
    exact decode_one hrow rest
  · rw [henc]
    exact decode_two hrow n rest

/-- Settles O2: the bytes of the row that the decoder found are the encoding. -/
theorem encodeOfDecode : Obligations.EncodeOfDecode := by
  intro bs i rest h
  refine ⟨instr_wellFormed i, ?_⟩
  obtain ⟨b, rfl, hrow⟩ | ⟨b, n, f, rfl, hrow, rfl⟩ := decode_ok h
  · rw [encode_of_lookup_one hrow]
    rfl
  · rw [encode_of_lookup_two hrow]
    rfl

theorem decode_undefined_iff {b : Byte} {rest : List Byte} :
    decode (b :: rest) = .error (.undefinedByte b) ↔ (lookup b rows).isNone = true := by
  rcases hrow : lookup b rows with _ | (i | f)
  · simp [decode_unlisted hrow]
  · simp [decode_one hrow]
  · rcases rest with _ | ⟨n, rest⟩
    · simp [decode_two_truncated hrow]
    · simp [decode_two hrow]

/-- Settles O3: by the 256 bytes, of which the listing has 60. -/
theorem undefinedBytesAreThreeClasses : Obligations.UndefinedBytesAreThreeClasses := by
  intro b rest
  rw [decode_undefined_iff]
  revert b
  decide

/-- 30_encoding.md R64: the mode field asks for a byte 2, and the byte is not FETCH. -/
abbrev ModeFieldHasByte2 (b : Byte) : Prop :=
  b ≠ 0x00#8 ∧ (b.extractLsb' 0 3 = 0b000#3 ∨ b.extractLsb' 0 3 = 0b110#3)

def Entry.isTwo : Entry → Bool
  | .one _ => false
  | .two _ => true

theorem isTwo_iff_modeField : ∀ row ∈ rows, row.entry.isTwo = true ↔ ModeFieldHasByte2 row.byte1 := by
  decide

/-- Settles O4: what is left is what the row of byte 1 leaves, and the rows that take a byte 2 are those R64 names. -/
theorem lengthFollowsModeField : Obligations.LengthFollowsModeField := by
  intro b n rest i after h
  have hmode : ∀ {e : Entry}, lookup b rows = some e → (e.isTwo = true ↔ ModeFieldHasByte2 b) :=
    fun hrow => isTwo_iff_modeField _ (lookup_mem hrow)
  obtain ⟨c, hbytes, hrow⟩ | ⟨c, m, f, hbytes, hrow, -⟩ := decode_ok h
  · obtain ⟨rfl, rfl⟩ := List.cons_eq_cons.mp hbytes
    exact (if_neg (mt (hmode hrow).mpr Bool.false_ne_true)).symm
  · obtain ⟨rfl, hbytes'⟩ := List.cons_eq_cons.mp hbytes
    obtain ⟨-, rfl⟩ := List.cons_eq_cons.mp hbytes'
    exact (if_pos ((hmode hrow).mp rfl)).symm

/-- Settles O5: each word by its row. -/
theorem listedWordsDecode : Obligations.ListedWordsDecode :=
  ⟨decode_one rfl _, decode_two rfl _ _, decode_one rfl _, decode_one rfl _, decode_two rfl _ _, decode_one rfl _⟩

end Sys2Proof

/-! What an instruction does, by its operation and its mode: the operand or the address comes from the mode, and the
operation says what becomes of it. Facts about all 60 instructions then split into 16 operations. -/

namespace Sys2Proof.Machine

open Sys2Proof

/-! ### Reads that only move IP and lengthen the trace -/

/-- The state with IP at `ip` and the accesses `reads`, newest first, made since. -/
def State.moved (s : State) (ip : Addr) (reads : List Event) : State := { s with ip := ip, trace := reads ++ s.trace }

section Moved

variable (s : State) (ip : Addr) (reads : List Event)

@[simp] theorem State.moved_a : (s.moved ip reads).a = s.a := rfl
@[simp] theorem State.moved_r : (s.moved ip reads).r = s.r := rfl
@[simp] theorem State.moved_ip : (s.moved ip reads).ip = ip := rfl
@[simp] theorem State.moved_z : (s.moved ip reads).z = s.z := rfl
@[simp] theorem State.moved_ir : (s.moved ip reads).ir = s.ir := rfl
@[simp] theorem State.moved_mem : (s.moved ip reads).mem = s.mem := rfl
@[simp] theorem State.moved_memMap : (s.moved ip reads).memMap = s.memMap := rfl
@[simp] theorem State.moved_portScript : (s.moved ip reads).portScript = s.portScript := rfl
@[simp] theorem State.moved_trace : (s.moved ip reads).trace = reads ++ s.trace := rfl
@[simp] theorem State.moved_clock : (s.moved ip reads).clock = s.clock := rfl

end Moved

/-- Accesses that are all memory reads. -/
def MemReads (es : List Event) : Prop := ∀ e ∈ es, e.isWrite = false ∧ e.isPort = false

@[simp] theorem memReads_nil : MemReads [] := by simp [MemReads]

@[simp] theorem memReads_cons_memRead (p : Addr) (v : Byte) (es : List Event) :
    MemReads (.memRead p v :: es) ↔ MemReads es := by
  simp [MemReads, Event.isWrite, Event.isPort]

/-! ### Operand, address and jump by mode -/

/-- The ports and the stores are listed with an address alone (30_encoding.md R67). -/
theorem direct_or_indirect_of_listed {o : Operation} {m : Mode} (ho : o ∈ [.inp, .out, .sta, .str])
    (h : listed o m = true) : m = .direct ∨ m = .indirect := by
  fin_cases ho <;> cases m <;> simp [listed] at h ⊢

/-- The jumps are listed with byte 2 or R as their target (30_encoding.md R67). -/
theorem direct_or_regR_of_listed {o : Operation} {m : Mode} (ho : o ∈ [.jmp, .jnz, .jz])
    (h : listed o m = true) : m = .direct ∨ m = .regR := by
  fin_cases ho <;> cases m <;> simp [listed] at h ⊢

/-- `Operand(mode)` (30_encoding.md R66): the value, and the state in which it was read. -/
def operandOf (n : Byte) (s : State) : Mode → Byte × State
  | .direct => operandDirect n s
  | .regA => operandA s
  | .regR => operandR s
  | .indirect => operandIndirect s
  | .immediate => operandImmediate n s

/-- The address of a store or of a port: byte 2, or R. -/
def addressOf (n : Byte) (s : State) : Mode → Addr × State
  | .direct => (eaDirect n, s.takeByte2 n)
  | _ => (eaIndirect s, s)

/-- A jump, taken or not, to byte 2 or to R. -/
def jumpOf (taken : Bool) (n : Byte) (s : State) : Mode → State
  | .direct => if taken then jumpDirect n s else s.incIp
  | _ => if taken then jumpRegister s else s

/-- IP where the bytes of the instruction end, from a state that FETCH left. -/
def State.pastByte2 (s : State) (m : Mode) : Addr := if m.hasByte2 then s.ip + 1#8 else s.ip

theorem operandOf_moved (n : Byte) (s : State) (m : Mode) :
    ∃ reads, (operandOf n s m).2 = s.moved (s.pastByte2 m) reads ∧ reads.length ≤ 2 ∧ MemReads reads := by
  cases m with
  | direct => exact ⟨[_, _], rfl, by simp, by simp⟩
  | indirect => exact ⟨[_], rfl, by simp, by simp⟩
  | immediate => exact ⟨[_], rfl, by simp, by simp⟩
  | regA | regR => exact ⟨[], rfl, by simp, by simp⟩

theorem addressOf_moved (n : Byte) (s : State) (m : Mode) :
    ∃ ip reads, (addressOf n s m).2 = s.moved ip reads ∧ reads.length ≤ 1 ∧ MemReads reads ∧
      (m = .direct ∨ m = .indirect → ip = s.pastByte2 m) := by
  cases m with
  | direct => exact ⟨_, [_], rfl, by simp, by simp, fun _ => rfl⟩
  | regA | regR | indirect => exact ⟨_, [], rfl, by simp, by simp, fun _ => rfl⟩
  | immediate => exact ⟨_, [], rfl, by simp, by simp, by simp⟩

theorem jumpOf_moved (taken : Bool) (n : Byte) (s : State) (m : Mode) :
    ∃ ip reads, jumpOf taken n s m = s.moved ip reads ∧ reads.length ≤ 1 ∧ MemReads reads := by
  cases taken with
  | false => cases m <;> exact ⟨_, [], rfl, by simp, by simp⟩
  | true =>
    cases m with
    | direct => exact ⟨_, [_], rfl, by simp, by simp⟩
    | regA | regR | indirect | immediate => exact ⟨_, [], rfl, by simp, by simp⟩

/-! ### The effect of an operation -/

/-- Conflict C5: DEC, INV and SHL with the operand R leave in R what they leave in A. -/
def copyToR : Mode → State → State
  | .regR, s => s.setR s.a
  | _, s => s

/-- What an operation does before its clock cycles are counted; `n` is byte 2 where the mode has one. -/
def effectOf (n : Byte) (s : State) : Operation → Mode → State
  | .inp, m =>
    let port := addressOf n s m
    (port.2.portRead port.1).2.setA (port.2.portRead port.1).1
  | .out, m => (addressOf n s m).2.portWrite (addressOf n s m).1 s.a
  | .jmp, m => jumpOf true n s m
  | .jnz, m => jumpOf (!s.z) n s m
  | .jz, m => jumpOf s.z n s m
  | .cmp, m => (operandOf n s m).2.setZ (compareZ s.a (operandOf n s m).1)
  | .lda, m => (operandOf n s m).2.setA (operandOf n s m).1
  | .ldr, m => (operandOf n s m).2.setR (operandOf n s m).1
  | .sta, m => (addressOf n s m).2.memWrite (addressOf n s m).1 s.a
  | .str, m => (addressOf n s m).2.memWrite (addressOf n s m).1 s.r
  | .add, m => (operandOf n s m).2.setA (add8 s.a (operandOf n s m).1)
  | .sub, m => (operandOf n s m).2.setA (sub8 s.a (operandOf n s m).1)
  | .dec, m => copyToR m ((operandOf n s m).2.setA (dec8 (operandOf n s m).1))
  | .or, m => (operandOf n s m).2.setA (or8 s.a (operandOf n s m).1)
  | .inv, m => copyToR m ((operandOf n s m).2.setA (inv8 (operandOf n s m).1))
  | .shl, m => copyToR m ((operandOf n s m).2.setA (shl8 (operandOf n s m).1))

/-- The effect of an instruction, by its fields; FETCH has none. -/
def effectOfForm (s : State) : Form → State
  | .fetch => s
  | .op o m byte2 => effectOf (byte2.getD 0#8) s o m

/-- Every instruction answers a next state: the effect of its fields, and the figure of the clock table less the three
clocks that FETCH has spent. -/
theorem exec_eq_effect (i : Instr) (s : State) :
    exec i s = .next ((effectOfForm s i.form).spend (clockFigure s.z i - 3)) := by
  cases i
  case cmpA => exact exec_cmpA_eq s
  case jnzAddress | jnzR | jzAddress | jzR =>
    obtain ⟨a, r, ip, z, ir, mem, memMap, portScript, trace, clock⟩ := s
    cases z <;> rfl
  all_goals rfl

end Sys2Proof.Machine

/-! What an instruction can do at all: it makes reads that move IP and lengthen the trace, and ends in one write, or in
none. -/

namespace Sys2Proof.Machine

open Sys2Proof

/-! ### The write an operation ends in -/

/-- From the state `u` after its reads, an operation in a mode ends in the state `t` by one write of its kind. -/
inductive Writes (u : State) : Operation → Mode → State → Prop where
  | nothing {o m} (h : o ∈ [.jmp, .jnz, .jz]) : Writes u o m u
  | a {o m} (h : o ∈ [.lda, .add, .sub, .dec, .or, .inv, .shl]) (v : Byte) : Writes u o m (u.setA v)
  | both {o} (h : o ∈ [.dec, .inv, .shl]) (v : Byte) : Writes u o .regR ((u.setA v).setR v)
  | r {m} (v : Byte) : Writes u .ldr m (u.setR v)
  | z {m} (v : Bool) : Writes u .cmp m (u.setZ v)
  | cell {o m} (h : o ∈ [.sta, .str]) (p : Addr) (v : Byte) : Writes u o m (u.memWrite p v)
  | fromPort {m} (p : Addr) : Writes u .inp m ((u.portRead p).2.setA (u.portRead p).1)
  | toPort {m} (p : Addr) (v : Byte) : Writes u .out m (u.portWrite p v)

theorem writes_copyToR {u : State} {o : Operation} (m : Mode) (v : Byte) (h : o ∈ [.dec, .inv, .shl]) :
    Writes u o m (copyToR m (u.setA v)) := by
  have hdata : o ∈ [Operation.lda, .add, .sub, .dec, .or, .inv, .shl] := by
    fin_cases h <;> decide
  cases m with
  | regR => exact .both h v
  | direct | regA | indirect | immediate => exact .a hdata v

section Fields

variable {u t : State} {o : Operation} {m : Mode} (h : Writes u o m t)

include h

theorem Writes.ip_eq : t.ip = u.ip := by
  cases h <;> simp

theorem Writes.ir_eq : t.ir = u.ir := by
  cases h <;> simp

theorem Writes.memMap_eq : t.memMap = u.memMap := by
  cases h <;> simp

theorem Writes.clock_eq : t.clock = u.clock := by
  cases h <;> simp

/-- The write is at most one access, and it is a port access for IN and OUT alone. -/
theorem Writes.trace_eq : ∃ own : List Event, t.trace = own ++ u.trace ∧ own.length ≤ 1 ∧
    (own.filter Event.isPort).length = if o = .inp ∨ o = .out then 1 else 0 := by
  cases h with
  | nothing h | a h => exact ⟨[], rfl, by simp, by fin_cases h <;> rfl⟩
  | both h => exact ⟨[], rfl, by simp, by fin_cases h <;> rfl⟩
  | r | z => exact ⟨[], rfl, by simp, rfl⟩
  | cell h => exact ⟨[_], State.memWrite_trace .., by simp, by fin_cases h <;> rfl⟩
  | fromPort | toPort => exact ⟨[_], rfl, by simp, rfl⟩

end Fields

/-- From `s` to `t`: memory reads with IP at `ip` after them, then the write of the operation, at most two accesses in
all. An operation that is no jump leaves IP where the bytes of its mode end. -/
def ReadsThenWrites (s : State) (o : Operation) (m : Mode) (t : State) : Prop :=
  ∃ ip reads, MemReads reads ∧ Writes (s.moved ip reads) o m t ∧ t.trace.length ≤ s.trace.length + 2 ∧
    (o ∉ [.jmp, .jnz, .jz] → listed o m = true → ip = s.pastByte2 m)

section Shapes

variable {n : Byte} {s t : State} {o : Operation} {m : Mode}

theorem readsThenWrites_operand (hw : Writes (operandOf n s m).2 o m t)
    (htrace : t.trace = (operandOf n s m).2.trace) : ReadsThenWrites s o m t := by
  obtain ⟨reads, hop, hlen, hreads⟩ := operandOf_moved n s m
  rw [hop] at hw htrace
  refine ⟨_, reads, hreads, hw, ?_, fun _ _ => rfl⟩
  simp [htrace]
  omega

theorem readsThenWrites_address (ho : o ∈ [.inp, .out, .sta, .str]) (hw : Writes (addressOf n s m).2 o m t) :
    ReadsThenWrites s o m t := by
  obtain ⟨ip, reads, haddr, hlen, hreads, hip⟩ := addressOf_moved n s m
  rw [haddr] at hw
  refine ⟨ip, reads, hreads, hw, ?_, fun _ h => hip (direct_or_indirect_of_listed ho h)⟩
  obtain ⟨own, htrace, hown, -⟩ := hw.trace_eq
  simp [htrace]
  omega

theorem readsThenWrites_jump (taken : Bool) (h : o ∈ [.jmp, .jnz, .jz]) :
    ReadsThenWrites s o m (jumpOf taken n s m) := by
  obtain ⟨ip, reads, hjump, hlen, hreads⟩ := jumpOf_moved taken n s m
  rw [hjump]
  refine ⟨ip, reads, hreads, .nothing h, ?_, absurd h⟩
  simp
  omega

end Shapes

/-- Says once what an operation can do. -/
theorem effectOf_readsThenWrites (n : Byte) (s : State) (o : Operation) (m : Mode) :
    ReadsThenWrites s o m (effectOf n s o m) := by
  cases o with
  | inp => exact readsThenWrites_address (by decide) (.fromPort _)
  | out => exact readsThenWrites_address (by decide) (.toPort _ _)
  | sta | str => exact readsThenWrites_address (by decide) (.cell (by decide) _ _)
  | jmp | jnz | jz => exact readsThenWrites_jump _ (by decide)
  | cmp => exact readsThenWrites_operand (.z _) rfl
  | ldr => exact readsThenWrites_operand (.r _) rfl
  | lda | add | sub | or => exact readsThenWrites_operand (.a (by decide) _) rfl
  | dec | inv | shl => exact readsThenWrites_operand (writes_copyToR m _ (by decide)) (by cases m <;> rfl)

/-- Says once what an instruction can do: it completes, FETCH without reads or a write, and any other as its operation
does. -/
theorem exec_next {i : Instr} {s t : State} (h : exec i s = .next t) :
    ∃ u, t = u.spend (clockFigure s.z i - 3) ∧
      (i.form = .fetch ∧ u = s ∨ ∃ o m byte2, i.form = .op o m byte2 ∧ ReadsThenWrites s o m u) := by
  rw [exec_eq_effect, Host.Outcome.next.injEq] at h
  refine ⟨_, h.symm, ?_⟩
  rcases hform : i.form with _ | ⟨o, m, byte2⟩
  · exact .inl ⟨rfl, rfl⟩
  · exact .inr ⟨o, m, byte2, rfl, effectOf_readsThenWrites _ s o m⟩

end Sys2Proof.Machine

/-! The step, and what all 60 instructions keep (10_state.md, 20_memory.md section 6, 60_exceptions.md section 2,
70_reset_and_hazards.md section 5). -/

namespace Sys2Proof.Machine

open Sys2Proof

/-! ### FETCH and the step -/

theorem fetchPhase_eq_afterFetchOf (s : State) : s.fetchPhase = afterFetchOf s (s.cell s.ip) := rfl

theorem runLines_linesFetch_cpu (m : MicroState) : (runLines linesFetch m).cpu = m.cpu.fetchPhase := rfl

/-- Settles O6: the byte is the one the cell gives, and the three lines make the same transfers. -/
theorem fetchPhaseEffect : Obligations.FetchPhaseEffect :=
  ⟨fun s => ⟨s.cell s.ip, State.cell_of_fitted, fetchPhase_eq_afterFetchOf s⟩, runLines_linesFetch_cpu⟩

/-- Settles O7: the step by what is decoded, and FETCH by its definition. -/
theorem stepRunsDecodedInstruction : Obligations.StepRunsDecodedInstruction :=
  fun s _ _ _ h => ⟨step_of_decode h, fetchPhase_eq_afterFetchOf s⟩

/-- 60_exceptions.md R211: the fault names the address FETCH read the byte at, IP being one further by then. -/
theorem step_of_unlisted {s : State} (h : lookup (s.cell s.ip) rows = none) :
    step s = .fault (.illegalOpcode (s.cell s.ip) s.ip (afterFetchOf s (s.cell s.ip))) := by
  have hraise : step s = raiseIllegalOpcode (s.cell s.ip) s.fetchPhase := by
    simp only [step, State.fetchBytes, decode_unlisted h]
  rw [hraise, raiseIllegalOpcode, State.fetchPhase_ip, BitVec.add_sub_cancel, fetchPhase_eq_afterFetchOf]

/-- A listed byte at IP decodes, since a fetch always gives byte 2 too. -/
theorem decode_fetchBytes_of_listed {s : State} {e : Entry} (h : lookup (s.cell s.ip) rows = some e) :
    ∃ i rest, decode s.fetchBytes = .ok (i, rest) := by
  cases e with
  | one i => exact ⟨_, _, decode_one h _⟩
  | two f => exact ⟨_, _, decode_two h _ _⟩

/-- Settles O8: a byte that begins no encoding has no row. -/
theorem unlistedByteFaults : Obligations.UnlistedByteFaults :=
  fun _ h => step_of_unlisted (lookup_eq_none_iff.mpr h)

/-- Settles O9: a listed byte decodes and its instruction completes, and an unlisted one faults. -/
theorem onlyStopIsIllegalOpcode : Obligations.OnlyStopIsIllegalOpcode := by
  intro s
  rcases hrow : lookup (s.cell s.ip) rows with _ | e
  · exact .inr ⟨step_of_unlisted hrow, lookup_eq_none_iff.mp hrow⟩
  · obtain ⟨i, rest, hdecode⟩ := decode_fetchBytes_of_listed hrow
    exact .inl ⟨_, (step_of_decode hdecode).trans (exec_eq_effect i s.fetchPhase)⟩

/-! ### Completion, IR and IP -/

theorem exec_ir {i : Instr} {s t : State} (h : exec i s = .next t) : t.ir = s.ir := by
  obtain ⟨u, rfl, ⟨-, rfl⟩ | ⟨o, m, byte2, -, ip, reads, -, hw, -⟩⟩ := exec_next h
  · rfl
  · exact hw.ir_eq

theorem exec_memMap {i : Instr} {s t : State} (h : exec i s = .next t) : t.memMap = s.memMap := by
  obtain ⟨u, rfl, ⟨-, rfl⟩ | ⟨o, m, byte2, -, ip, reads, -, hw, -⟩⟩ := exec_next h
  · rfl
  · exact hw.memMap_eq

theorem lengthOfMode (i : Instr) : Laws.LengthOfMode.Statement i := by
  cases i <;> rfl

theorem isJump_of_form {i : Instr} {o : Operation} {m : Mode} {byte2 : Option Byte} (h : i.form = .op o m byte2) :
    isJump i = true ↔ o ∈ [.jmp, .jnz, .jz] := by
  cases o <;> simp [isJump, Instr.operation, h, Form.operation]

theorem listed_of_form {i : Instr} {o : Operation} {m : Mode} {byte2 : Option Byte} (h : i.form = .op o m byte2) :
    listed o m = true := by
  have hwf := instr_wellFormed i
  simp only [Instr.WellFormed, h, Form.wf, Bool.and_eq_true] at hwf
  obtain ⟨hlisted, -⟩ := hwf
  exact hlisted

/-- An instruction that is no jump moves IP past its byte 2, if it has one. -/
theorem exec_ip {i : Instr} {s t : State} (h : exec i s = .next t) (hjump : isJump i = false) :
    t.ip = s.ip + BitVec.ofNat 8 (i.length - 1) := by
  have hlength := lengthOfMode i
  obtain ⟨u, rfl, ⟨hform, rfl⟩ | ⟨o, m, byte2, hform, ip, reads, -, hw, -, hip⟩⟩ := exec_next h
  · simp_all [Laws.LengthOfMode.Statement]
  · have ho : o ∉ [.jmp, .jnz, .jz] := fun ho => by simp [(isJump_of_form hform).mpr ho] at hjump
    have hpast : u.ip = s.pastByte2 m := hw.ip_eq.trans (hip ho (listed_of_form hform))
    simp only [Laws.LengthOfMode.Statement, hform] at hlength
    rw [State.spend_ip, hpast, hlength, State.pastByte2]
    split <;> simp

/-- Settles O10: the effect is a next state, and what can be done leaves IR and the map alone. -/
theorem everyInstructionCompletes : Obligations.EveryInstructionCompletes := by
  intro i s
  have h := exec_eq_effect i s
  exact ⟨_, h, exec_ir h, exec_memMap h, exec_ip h⟩

/-- Settles O11: FETCH latches the byte, and no meaning writes IR. -/
theorem irHoldsTheOpcode : Obligations.IrHoldsTheOpcode := by
  intro s t h
  obtain ⟨i, rest, -, hexec⟩ := step_next h
  exact exec_ir hexec

/-! ### Writers (10_state.md R22, R31) -/

section Writers

variable {u t : State} {o : Operation} {m : Mode}

theorem Writes.a_eq (h : Writes u o m t) (ho : o ∉ [.lda, .add, .sub, .dec, .or, .inv, .shl, .inp]) : t.a = u.a := by
  cases h with
  | a h | both h => exact absurd (by fin_cases h <;> decide) ho
  | fromPort => exact absurd (by decide) ho
  | nothing | r | z | cell | toPort => simp

theorem Writes.r_eq (h : Writes u o m t) (ho : o ≠ .ldr) (hm : m = .regR → o ∉ [.dec, .inv, .shl]) : t.r = u.r := by
  cases h with
  | r => exact absurd rfl ho
  | both h => exact absurd h (hm rfl)
  | nothing | a | z | cell | fromPort | toPort => simp

theorem Writes.z_eq (h : Writes u o m t) (ho : o ≠ .cmp) : t.z = u.z := by
  cases h with
  | z => exact absurd rfl ho
  | nothing | a | both | r | cell | fromPort | toPort => simp

theorem Writes.mem_eq (h : Writes u o m t) (ho : o ∉ [.sta, .str]) : t.mem = u.mem := by
  cases h with
  | cell h => exact absurd h ho
  | nothing | a | both | r | z | fromPort | toPort => simp

theorem Writes.portScript_eq (h : Writes u o m t) (ho : o ≠ .inp) : t.portScript = u.portScript := by
  cases h with
  | fromPort => exact absurd rfl ho
  | nothing | a | both | r | z | cell | toPort => simp

end Writers

section Tables

variable {i : Instr} {o : Operation} {m : Mode} {byte2 : Option Byte} (h : i.form = .op o m byte2)

include h

theorem writesA_of_form : writesA i = true ↔ o ∈ [.lda, .add, .sub, .dec, .or, .inv, .shl, .inp] := by
  cases o <;> simp [writesA, Instr.operation, h, Form.operation]

theorem writesR_of_form : writesR i = true ↔ o = .ldr ∨ m = .regR ∧ o ∈ [.dec, .inv, .shl] := by
  cases o <;> cases m <;> simp [writesR, h]

theorem writesZ_of_form : writesZ i = true ↔ o = .cmp := by
  simp [writesZ, Instr.operation, h, Form.operation]

theorem writesMem_of_form : writesMem i = true ↔ o ∈ [.sta, .str] := by
  simp [writesMem, Instr.operation, h, Form.operation]

theorem reachesPorts_of_form : reachesPorts i = true ↔ o = .inp ∨ o = .out := by
  simp [reachesPorts, Instr.operation, h, Form.operation]

end Tables

/-- Settles O34: the one write of an instruction is to a part that the tables list it for. -/
theorem onlyListedWriters : Obligations.OnlyListedWriters := by
  intro i s t h
  obtain ⟨u, rfl, ⟨-, rfl⟩ | ⟨o, m, byte2, hform, ip, reads, -, hw, -⟩⟩ := exec_next h
  · exact ⟨fun _ => rfl, fun _ => rfl, fun _ => rfl, fun _ => rfl⟩
  · simp only [← Bool.not_eq_true, writesA_of_form hform, writesR_of_form hform, writesZ_of_form hform,
      writesMem_of_form hform, not_or, not_and]
    exact ⟨hw.a_eq, fun ⟨ho, hm⟩ => hw.r_eq ho hm, hw.z_eq, hw.mem_eq⟩

/-- The byte at IP is byte 1 of what is decoded there. -/
theorem cell_eq_byte1 {s : State} {i : Instr} {rest : List Byte} (h : decode s.fetchBytes = .ok (i, rest)) :
    s.cell s.ip = i.form.byte1 := by
  obtain ⟨-, hbytes⟩ := encodeOfDecode _ _ _ h
  rcases hform : i.form with _ | ⟨o, m, byte2⟩
  all_goals
    simp only [encode, hform, Form.bytes, State.fetchBytes, List.cons_append] at hbytes
    exact (List.cons_eq_cons.mp hbytes).1

/-- Bits 7 to 3 of byte 1 are the operation code (30_encoding.md R61). -/
theorem byte1_operation (o : Operation) (m : Mode) (byte2 : Option Byte) :
    (Form.op o m byte2).byte1.extractLsb' 3 5 = o.code :=
  BitVec.extractLsb'_append_eq_left

/-- Settles O35: IR holds byte 1 of what was executed, which is CMP, the only writer of Z. -/
theorem onlyCmpChangesZ : Obligations.OnlyCmpChangesZ := by
  intro s t h hz
  obtain ⟨i, rest, hdecode, hexec⟩ := step_next h
  obtain ⟨-, -, hkept, -⟩ := onlyListedWriters i s.fetchPhase t hexec
  have hwrites : writesZ i = true := by
    by_contra hno
    exact hz (hkept (eq_false_of_ne_true hno))
  rcases hform : i.form with _ | ⟨o, m, byte2⟩
  · simp [writesZ, Instr.operation, hform, Form.operation] at hwrites
  · obtain rfl := (writesZ_of_form hform).mp hwrites
    rw [irHoldsTheOpcode s t h, cell_eq_byte1 hdecode, hform, byte1_operation]
    rfl

/-! ### Accesses (20_memory.md R50, R55) -/

theorem filter_isPort_of_memReads {reads : List Event} (h : MemReads reads) : reads.filter Event.isPort = [] := by
  rw [List.filter_eq_nil_iff]
  intro e he
  obtain ⟨-, hport⟩ := h e he
  simp [hport]

/-- The accesses of an instruction: memory reads, and its own at the end if it has one. -/
theorem exec_trace {i : Instr} {s t : State} (h : exec i s = .next t) :
    ∃ own reads, t.trace = own ++ reads ++ s.trace ∧ MemReads reads ∧ own.length ≤ 1 ∧ own.length + reads.length ≤ 2 ∧
      (own.filter Event.isPort).length = if reachesPorts i then 1 else 0 := by
  obtain ⟨u, rfl, ⟨hform, rfl⟩ | ⟨o, m, byte2, hform, ip, reads, hreads, hw, hlen, -⟩⟩ := exec_next h
  · have hports : reachesPorts i = false := by simp [reachesPorts, Instr.operation, hform, Form.operation]
    exact ⟨[], [], rfl, memReads_nil, by simp, by simp, by simp [hports]⟩
  · obtain ⟨own, htrace, hown, hport⟩ := hw.trace_eq
    refine ⟨own, reads, by simp [htrace], hreads, hown, ?_, ?_⟩
    · simp [htrace] at hlen
      omega
    · simp only [hport, reachesPorts_of_form hform]

/-- Settles O39: the reads before the last access are of memory. -/
theorem portAccessesAreInAndOut : Obligations.PortAccessesAreInAndOut := by
  intro i s t h
  constructor
  · intro hports
    obtain ⟨u, rfl, ⟨-, rfl⟩ | ⟨o, m, byte2, hform, ip, reads, -, hw, -⟩⟩ := exec_next h
    · rfl
    · refine hw.portScript_eq fun ho => ?_
      simp [(reachesPorts_of_form hform).mpr (.inl ho)] at hports
  · obtain ⟨own, reads, htrace, hreads, -, -, hport⟩ := exec_trace h
    exact ⟨own ++ reads, htrace, by simp [filter_isPort_of_memReads hreads, hport]⟩

/-- Settles O40: the reads come before the last access, and FETCH before both. -/
theorem atMostThreeAccessesWriteLast : Obligations.AtMostThreeAccessesWriteLast := by
  intro s t h
  obtain ⟨i, rest, -, hexec⟩ := step_next h
  obtain ⟨own, reads, htrace, hreads, hown, hlen, -⟩ := exec_trace hexec
  refine ⟨own ++ reads, htrace, by simpa using hlen, fun e he => ?_⟩
  have hmem : e ∈ reads := by
    rcases own with _ | ⟨last, _ | ⟨_, _⟩⟩
    · exact List.mem_of_mem_tail he
    · exact he
    · simp at hown
  exact (hreads e hmem).1

/-! ### Clock cycles (70_reset_and_hazards.md R240, R241) -/

theorem clockTable_eq_lines (z : Bool) {o : Operation} {m : Mode} (h : listed o m = true) :
    clockTable z o m = 3 + (linesOf z o m).length := by
  cases o with
  | inp | out | sta | str => obtain rfl | rfl := direct_or_indirect_of_listed (by decide) h <;> rfl
  | jmp | jnz | jz => obtain rfl | rfl := direct_or_regR_of_listed (by decide) h <;> cases z <;> rfl
  | cmp | lda | ldr | add | sub | dec | or | inv | shl => cases m <;> rfl

/-- Settles O42: the table against the lines, for the modes the opcode map lists. -/
theorem clockCyclesCountMicroLines : Obligations.ClockCyclesCountMicroLines := by
  intro z i
  rcases hform : i.form with _ | ⟨o, m, byte2⟩
  · simp [clockFigure, hform, executeLines]
  · simpa [clockFigure, hform, executeLines] using clockTable_eq_lines z (listed_of_form hform)

theorem exec_clock {i : Instr} {s t : State} (h : exec i s = .next t) : t.clock + 3 = s.clock + clockFigure s.z i := by
  have hfigure := clockCyclesCountMicroLines s.z i
  have hclock : t.clock = s.clock + (clockFigure s.z i - 3) := by
    obtain ⟨u, rfl, ⟨-, rfl⟩ | ⟨o, m, byte2, -, ip, reads, -, hw, -⟩⟩ := exec_next h
    · rfl
    · simp [hw.clock_eq]
  omega

/-- Settles O41: FETCH spends three clock cycles and the meaning the rest of the figure. -/
theorem clockCyclesAreTheTable : Obligations.ClockCyclesAreTheTable := by
  intro s t i rest hdecode h
  have hclock := exec_clock ((step_of_decode hdecode).symm.trans h)
  simp only [State.fetchPhase_clock, State.fetchPhase_z] at hclock
  omega

end Sys2Proof.Machine

/-! Which registers an instruction reads (10_state.md R22, the column "read by"): with another value put into a register
it does not read, its effect is what it was where it writes that register, and else what it was with the value put in. -/

namespace Sys2Proof.Machine

open Sys2Proof

/-- `put` changes a register before an instruction runs; the instruction's effect is then what it was, if `overwritten`,
and else what it was with `put` done to it. Counting clock cycles commutes with `put`. -/
theorem exec_put {i : Instr} {s t : State} {put : State → State} {overwritten : Bool} (h : exec i s = .next t)
    (hspend : ∀ u k, put (State.spend u k) = (put u).spend k)
    (hfigure : clockFigure (put s).z i = clockFigure s.z i)
    (heffect : effectOfForm (put s) i.form =
      if overwritten then effectOfForm s i.form else put (effectOfForm s i.form)) :
    exec i (put s) = .next (if overwritten then t else put t) := by
  rw [exec_eq_effect, Host.Outcome.next.injEq] at h
  subst h
  rw [exec_eq_effect, hfigure, heffect]
  cases overwritten with
  | false => simp [hspend]
  | true => simp

/-! ### A -/

section A

variable (n : Byte) (s : State) {o : Operation} {m : Mode} (x : Byte)

theorem operandOf_setA (hm : m ≠ .regA) :
    operandOf n (s.setA x) m = ((operandOf n s m).1, (operandOf n s m).2.setA x) := by
  cases m with
  | regA => exact absurd rfl hm
  | direct | regR | indirect | immediate => rfl

theorem addressOf_setA : addressOf n (s.setA x) m = ((addressOf n s m).1, (addressOf n s m).2.setA x) := by
  cases m <;> rfl

theorem jumpOf_setA (taken : Bool) : jumpOf taken n (s.setA x) m = (jumpOf taken n s m).setA x := by
  cases taken <;> cases m <;> rfl

theorem effectOf_setA (ho : o ∉ [.add, .sub, .or, .cmp, .sta, .out]) (hm : m ≠ .regA) :
    effectOf n (s.setA x) o m = if o ∈ [.lda, .add, .sub, .dec, .or, .inv, .shl, .inp] then effectOf n s o m
      else (effectOf n s o m).setA x := by
  cases o with
  | jmp | jnz | jz => exact jumpOf_setA n s x _
  | ldr | lda | dec | inv | shl => simp only [effectOf, operandOf_setA n s x hm]; rfl
  | inp => simp only [effectOf, addressOf_setA]; rfl
  | str => simp only [effectOf, addressOf_setA, State.setA_memWrite]; rfl
  | add | sub | or | cmp | sta | out => exact absurd (by decide) ho

end A

theorem readsA_of_form {i : Instr} {o : Operation} {m : Mode} {byte2 : Option Byte} (h : i.form = .op o m byte2) :
    readsA i = true ↔ o ∈ [.add, .sub, .or, .cmp, .sta, .out] ∨ m = .regA := by
  cases o <;> cases m <;> simp [readsA, h]

/-- Settles O36: by the columns for A. -/
theorem onlyListedReadersOfA : Obligations.OnlyListedReadersOfA := by
  intro i s t x hreads h
  refine exec_put (put := fun u => u.setA x) h (fun _ _ => rfl) rfl ?_
  rcases hform : i.form with _ | ⟨o, m, byte2⟩
  · simp [writesA, Instr.operation, hform, Form.operation, effectOfForm]
  · rw [← Bool.not_eq_true, readsA_of_form hform, not_or] at hreads
    obtain ⟨ho, hm⟩ := hreads
    exact (effectOf_setA _ s x ho hm).trans (if_congr (writesA_of_form hform).symm rfl rfl)

/-! ### R -/

section R

variable (n : Byte) (s : State) {o : Operation} {m : Mode} (x : Byte)

theorem operandOf_setR (hm : m ≠ .regR) (hm' : m ≠ .indirect) :
    operandOf n (s.setR x) m = ((operandOf n s m).1, (operandOf n s m).2.setR x) := by
  cases m with
  | regR => exact absurd rfl hm
  | indirect => exact absurd rfl hm'
  | direct | regA | immediate => rfl

theorem jumpOf_direct_setR (taken : Bool) :
    jumpOf taken n (s.setR x) .direct = (jumpOf taken n s .direct).setR x := by
  cases taken <;> rfl

theorem copyToR_setR (hm : m ≠ .regR) : copyToR m (s.setR x) = (copyToR m s).setR x := by
  cases m with
  | regR => exact absurd rfl hm
  | direct | regA | indirect | immediate => rfl

theorem effectOf_setR (hlisted : listed o m = true) (ho : o ≠ .str) (hm : m ≠ .regR) (hm' : m ≠ .indirect) :
    effectOf n (s.setR x) o m = if o = .ldr ∨ m = .regR ∧ o ∈ [.dec, .inv, .shl] then effectOf n s o m
      else (effectOf n s o m).setR x := by
  simp only [hm, false_and, or_false]
  cases o with
  | inp | out =>
    obtain rfl := (direct_or_indirect_of_listed (by decide) hlisted).resolve_right hm'
    rfl
  | jmp | jnz | jz =>
    obtain rfl := (direct_or_regR_of_listed (by decide) hlisted).resolve_right hm
    simp only [effectOf, State.setR_z, jumpOf_direct_setR]
    rfl
  | sta =>
    obtain rfl := (direct_or_indirect_of_listed (by decide) hlisted).resolve_right hm'
    exact State.setR_memWrite (s.takeByte2 n) x n s.a
  | ldr | lda | add | sub | or | cmp => simp only [effectOf, operandOf_setR n s x hm hm']; rfl
  | dec | inv | shl =>
    simp only [effectOf, operandOf_setR n s x hm hm']
    exact copyToR_setR ((operandOf n s m).2.setA _) x hm
  | str => exact absurd rfl ho

end R

theorem readsR_of_form {i : Instr} {o : Operation} {m : Mode} {byte2 : Option Byte} (h : i.form = .op o m byte2) :
    readsR i = true ↔ o = .str ∨ m = .regR ∨ m = .indirect := by
  cases o <;> cases m <;> simp [readsR, h]

/-- Settles O37: by the columns for R. -/
theorem onlyListedReadersOfR : Obligations.OnlyListedReadersOfR := by
  intro i s t x hreads h
  refine exec_put (put := fun u => u.setR x) h (fun _ _ => rfl) rfl ?_
  rcases hform : i.form with _ | ⟨o, m, byte2⟩
  · simp [writesR, hform, effectOfForm]
  · rw [← Bool.not_eq_true, readsR_of_form hform, not_or, not_or] at hreads
    obtain ⟨ho, hm, hm'⟩ := hreads
    exact (effectOf_setR _ s x (listed_of_form hform) ho hm hm').trans
      (if_congr (writesR_of_form hform).symm rfl rfl)

/-! ### Z -/

section Z

variable (n : Byte) (s : State) {o : Operation} {m : Mode} (x : Bool)

theorem operandOf_setZ : operandOf n (s.setZ x) m = ((operandOf n s m).1, (operandOf n s m).2.setZ x) := by
  cases m <;> rfl

theorem addressOf_setZ : addressOf n (s.setZ x) m = ((addressOf n s m).1, (addressOf n s m).2.setZ x) := by
  cases m <;> rfl

theorem copyToR_setZ : copyToR m (s.setZ x) = (copyToR m s).setZ x := by
  cases m <;> rfl

theorem effectOf_setZ (ho : o ∉ [.jnz, .jz]) :
    effectOf n (s.setZ x) o m = if o = .cmp then effectOf n s o m else (effectOf n s o m).setZ x := by
  cases o with
  | jmp => cases m <;> rfl
  | inp | out => simp only [effectOf, addressOf_setZ]; rfl
  | sta | str => simp only [effectOf, addressOf_setZ, State.setZ_memWrite]; rfl
  | cmp | lda | ldr | add | sub | or => simp only [effectOf, operandOf_setZ]; rfl
  | dec | inv | shl =>
    simp only [effectOf, operandOf_setZ]
    exact copyToR_setZ ((operandOf n s m).2.setA _) x
  | jnz | jz => exact absurd (by decide) ho

/-- Only the conditional jumps have two figures. -/
theorem clockTable_eq_of_unconditional (z : Bool) (ho : o ∉ [.jnz, .jz]) : clockTable x o m = clockTable z o m := by
  cases o with
  | jnz | jz => exact absurd (by decide) ho
  | _ => cases m <;> rfl

end Z

theorem readsZ_of_form {i : Instr} {o : Operation} {m : Mode} {byte2 : Option Byte} (h : i.form = .op o m byte2) :
    readsZ i = true ↔ o ∈ [.jnz, .jz] := by
  cases o <;> simp [readsZ, Instr.operation, h, Form.operation]

/-- Settles O38: by the columns for Z; the figure depends on Z for the conditional jumps alone. -/
theorem onlyConditionalJumpsReadZ : Obligations.OnlyConditionalJumpsReadZ := by
  intro i s t x hreads h
  rcases hform : i.form with _ | ⟨o, m, byte2⟩
  · refine exec_put (put := fun u => u.setZ x) h (fun _ _ => rfl) ?figure ?effect
    case figure => simp [clockFigure, hform]
    case effect => simp [writesZ, Instr.operation, hform, Form.operation, effectOfForm]
  · rw [← Bool.not_eq_true, readsZ_of_form hform] at hreads
    refine exec_put (put := fun u => u.setZ x) h (fun _ _ => rfl) ?figure ?effect
    case figure => simpa [clockFigure, hform] using clockTable_eq_of_unconditional x s.z hreads
    case effect =>
      rw [hform]
      exact (effectOf_setZ _ s x hreads).trans (if_congr (writesZ_of_form hform).symm rfl rfl)

end Sys2Proof.Machine

/-! Memory contents in canonical form (20_memory.md R49; log entries 2 and 18). -/

namespace Sys2Proof.Machine

open Sys2Proof

/-! ### Reads of a list in form -/

theorem Memory.read_cons (p : Nat) (v : Byte) (m : Memory) (j : Nat) :
    Memory.read ((p, v) :: m) j = if j = p then v else m.read j := rfl

/-- Below its first address a list in form holds what an unlisted address holds. -/
theorem Memory.read_below {j : Nat} :
    ∀ {m : Memory} {lo : Nat}, Memory.wfFrom lo m = true → j < lo → m.read j = Config.unlistedByte
  | [], _, _, _ => rfl
  | (p, v) :: m, lo, hm, hj => by
    obtain ⟨hlo, -, -, hrest⟩ := Memory.wfFrom_cons.mp hm
    rw [Memory.read_cons, if_neg (by omega), Memory.read_below hrest (by omega)]

theorem Memory.read_consCell_ne {j k : Nat} (hj : j ≠ k) (v : Byte) (m : Memory) :
    (Memory.cons k v m).read j = m.read j := by
  unfold Memory.cons
  split
  · rfl
  · rw [Memory.read_cons, if_neg hj]

/-- A cell put in front is read back, also where it is left out of the list for holding what is read there anyway. -/
theorem Memory.read_consCell_same {k : Nat} {v : Byte} {m : Memory} (hm : Memory.wfFrom (k + 1) m = true) :
    (Memory.cons k v m).read k = v := by
  unfold Memory.cons
  split
  · rw [Memory.read_below hm (Nat.lt_succ_self k)]
    exact Eq.symm ‹_›
  · rw [Memory.read_cons, if_pos rfl]

/-- The frame of a write needs no form. -/
theorem Memory.read_write_ne {j k : Nat} (hj : j ≠ k) (v : Byte) :
    ∀ m : Memory, (m.write k v).read j = m.read j
  | [] => Memory.read_consCell_ne hj v []
  | (p, w) :: m => by
    unfold Memory.write
    split
    · exact Memory.read_consCell_ne hj v _
    · split
      · subst k
        rw [Memory.read_consCell_ne hj, Memory.read_cons, if_neg hj]
      · rw [Memory.read_cons, Memory.read_cons, Memory.read_write_ne hj v m]

theorem Memory.read_write_same {k : Nat} {v : Byte} :
    ∀ {m : Memory} {lo : Nat}, Memory.wfFrom lo m = true → (m.write k v).read k = v
  | [], _, _ => Memory.read_consCell_same rfl
  | (p, w) :: m, lo, hm => by
    obtain ⟨hlo, h256, hw, hrest⟩ := Memory.wfFrom_cons.mp hm
    unfold Memory.write
    split
    · exact Memory.read_consCell_same (Memory.wfFrom_cons.mpr ⟨by omega, h256, hw, hrest⟩)
    · split
      · subst k
        exact Memory.read_consCell_same hrest
      · rw [Memory.read_cons, if_neg ‹_›]
        exact Memory.read_write_same hrest

/-- Settles O44: by induction on the list. -/
theorem memoryReadAfterWrite : Obligations.MemoryReadAfterWrite :=
  fun m _ v hm => ⟨Memory.read_write_same hm, fun _ hj => Memory.read_write_ne hj v m⟩

/-! ### Extensionality -/

/-- A list in form with a cell differs in what it reads there from a list that begins after it. -/
theorem Memory.read_head_ne {p lo lo' : Nat} {v : Byte} {m m' : Memory} (hm : Memory.wfFrom lo ((p, v) :: m) = true)
    (hm' : Memory.wfFrom lo' m' = true) (hp : p < lo') : Memory.read ((p, v) :: m) p ≠ Memory.read m' p := by
  obtain ⟨-, -, hv, -⟩ := Memory.wfFrom_cons.mp hm
  rw [Memory.read_cons, if_pos rfl, Memory.read_below hm' hp]
  exact hv

theorem Memory.ext_of_wfFrom :
    ∀ {m m' : Memory} {lo lo' : Nat}, Memory.wfFrom lo m = true → Memory.wfFrom lo' m' = true →
      (∀ k, m.read k = m'.read k) → m = m'
  | [], [], _, _, _, _, _ => rfl
  | [], (p, v) :: m', _, _, _, hm', h =>
    absurd (h p).symm (Memory.read_head_ne (lo' := p + 1) hm' rfl (by omega))
  | (p, v) :: m, [], _, _, hm, _, h =>
    absurd (h p) (Memory.read_head_ne (lo' := p + 1) hm rfl (by omega))
  | (p, v) :: m, (q, w) :: m', lo, lo', hm, hm', h => by
    obtain ⟨-, h256, hv, hrest⟩ := Memory.wfFrom_cons.mp hm
    obtain ⟨-, h256', hw, hrest'⟩ := Memory.wfFrom_cons.mp hm'
    rcases lt_trichotomy p q with hlt | rfl | hlt
    · exact absurd (h p) (Memory.read_head_ne hm (Memory.wfFrom_cons.mpr ⟨le_refl q, h256', hw, hrest'⟩) hlt)
    · have hhead : v = w := by simpa [Memory.read_cons] using h p
      have htail : ∀ k, Memory.read m k = Memory.read m' k := by
        intro k
        by_cases hk : k = p
        · rw [hk, Memory.read_below hrest (by omega), Memory.read_below hrest' (by omega)]
        · simpa [Memory.read_cons, hk] using h k
      rw [hhead, Memory.ext_of_wfFrom hrest hrest' htail]
    · exact absurd (h q).symm (Memory.read_head_ne hm' (Memory.wfFrom_cons.mpr ⟨le_refl p, h256, hv, hrest⟩) hlt)

/-- Settles O45: by induction on both lists; the first cell tells two lists apart. -/
theorem equalReadsEqualMemory : Obligations.EqualReadsEqualMemory :=
  fun _ _ hm hm' h => Memory.ext_of_wfFrom hm hm' h

/-! ### Memory after a write access and after reset -/

/-- A write access changes no cell but the one it writes, and that only in ram. -/
theorem State.memWrite_read_ne {s : State} {p : Addr} {j : Nat} (h : s.kindAt p = .ram → j ≠ p.toNat) (v : Byte) :
    (s.memWrite p v).mem.read j = s.mem.read j := by
  rw [State.memWrite_mem]
  split
  · exact Memory.read_write_ne (h ‹_›) v _
  · rfl

theorem State.memWrite_read_same {s : State} {p : Addr} (hkind : s.kindAt p = .ram) (hinv : s.Inv) (v : Byte) :
    (s.memWrite p v).mem.read p.toNat = v := by
  rw [State.memWrite_mem, if_pos hkind]
  exact Memory.read_write_same hinv

/-- Settles O47: reset takes MEM_INIT as it is. -/
theorem resetHasMemoryForm : Obligations.ResetHasMemoryForm :=
  ⟨fun _ h => h, State.reset_wf⟩

/-- Settles O50: no access has been made. -/
theorem resetIsCoherent : Obligations.ResetIsCoherent :=
  fun _ => ⟨fun _ _ => rfl, trivial⟩

end Sys2Proof.Machine

/-! The micro-programs (40_fetch.md section 3): the transfers of an instruction have its effect, and its lines are its
clock cycles. -/

namespace Sys2Proof.Machine

open Sys2Proof

/-! ### Clock cycles can be counted after the transfers -/

/-- `k` clock cycles pass. -/
def MicroState.ticks (m : MicroState) (k : Nat) : MicroState := { m with cpu := m.cpu.spend k }

theorem MicroState.ticks_ticks (m : MicroState) (j k : Nat) : (m.ticks j).ticks k = m.ticks (j + k) := by
  simp only [MicroState.ticks, State.spend_spend]

theorem Transfer.run_ticks (x : Transfer) (m : MicroState) (k : Nat) : x.run (m.ticks k) = (x.run m).ticks k := by
  cases x with
  | assertMemw => simp only [Transfer.run, MicroState.ticks, State.spend_memWrite]
  | _ => rfl

theorem runTransfers_ticks (k : Nat) :
    ∀ (xs : List Transfer) (m : MicroState), runTransfers xs (m.ticks k) = (runTransfers xs m).ticks k
  | [], _ => rfl
  | x :: xs, m => by
    rw [runTransfers, Transfer.run_ticks, runTransfers_ticks k xs]
    rfl

theorem runTransfers_append (ys : List Transfer) :
    ∀ (xs : List Transfer) (m : MicroState), runTransfers (xs ++ ys) m = runTransfers ys (runTransfers xs m)
  | [], _ => rfl
  | x :: xs, m => runTransfers_append ys xs (x.run m)

theorem runLines_append (ls' : List Line) :
    ∀ (ls : List Line) (m : MicroState), runLines (ls ++ ls') m = runLines ls' (runLines ls m)
  | [], _ => rfl
  | l :: ls, m => runLines_append ls' ls (runLine l m)

theorem runLines_eq_ticks :
    ∀ (ls : List Line) (m : MicroState), runLines ls m = (runTransfers ls.flatten m).ticks ls.length
  | [], _ => rfl
  | l :: ls, m => by
    have hline : runLine l m = (runTransfers l m).ticks 1 := rfl
    rw [runLines, hline, runLines_eq_ticks ls, runTransfers_ticks, MicroState.ticks_ticks, List.flatten_cons,
      runTransfers_append, List.length_cons, Nat.add_comm]

/-! ### The blocks of lines -/

/-- Where the operand of a mode stands once its lines have run. -/
def MicroState.operand (m : MicroState) : Mode → Byte
  | .regA => m.cpu.a
  | .regR => m.cpu.r
  | .direct | .indirect | .immediate => m.dr

section Blocks

variable (m : MicroState) {md : Mode} {n : Byte}

theorem run_linesOperand (hn : md.hasByte2 = true → n = m.cpu.cell m.cpu.ip) :
    (runTransfers (linesOperand md).flatten m).cpu = (operandOf n m.cpu md).2 ∧
    (runTransfers (linesOperand md).flatten m).operand md = (operandOf n m.cpu md).1 := by
  cases md with
  | direct | immediate =>
    obtain rfl := hn rfl
    exact ⟨rfl, rfl⟩
  | regA | regR | indirect => exact ⟨rfl, rfl⟩

theorem run_linesAddress (hn : md.hasByte2 = true → n = m.cpu.cell m.cpu.ip) (hmd : md = .direct ∨ md = .indirect) :
    (runTransfers (linesAddress md).flatten m).cpu = (addressOf n m.cpu md).2 ∧
    (runTransfers (linesAddress md).flatten m).or = (addressOf n m.cpu md).1 := by
  rcases hmd with rfl | rfl
  · obtain rfl := hn rfl
    exact ⟨rfl, rfl⟩
  · exact ⟨rfl, rfl⟩

theorem run_linesAlu (f : AluOp) :
    (runTransfers (linesAlu f md).flatten m).cpu = m.cpu.setA (aluOut m.cpu.a (m.operand md) f) := by
  cases md <;> rfl

theorem run_linesThroughA (f : AluOp) :
    (runTransfers (linesThroughA f md).flatten m).cpu =
      copyToR md (m.cpu.setA (aluOut (m.operand md) m.aluB f)) := by
  cases md <;> rfl

theorem run_linesInv :
    (runTransfers (linesInv md).flatten m).cpu = copyToR md (m.cpu.setA (inv8 (m.operand md))) := by
  cases md <;> rfl

theorem run_linesPortRead :
    (runTransfers (linesPortRead ++ [[Transfer.aFromDr]]).flatten m).cpu =
      (m.cpu.portRead m.or).2.setA (m.cpu.portRead m.or).1 := rfl

theorem run_linesPortWrite :
    (runTransfers linesPortWrite.flatten m).cpu = m.cpu.portWrite m.or m.cpu.a := rfl

theorem run_linesOperandWrite_a :
    (runTransfers (linesOperandWrite .drFromA).flatten m).cpu = m.cpu.memWrite m.or m.cpu.a := rfl

theorem run_linesOperandWrite_r :
    (runTransfers (linesOperandWrite .drFromR).flatten m).cpu = m.cpu.memWrite m.or m.cpu.r := rfl

end Blocks

/-! ### The jumps -/

/-- The lines of a jump, taken or not. -/
def linesJump : Bool → Mode → List Line
  | true, .direct => linesTarget
  | true, _ => [[.ipFromR]]
  | false, .direct => [[.ipFromIpPlus1]]
  | false, _ => [[.noOperation]]

theorem linesOf_jmp (z : Bool) (md : Mode) : linesOf z .jmp md = linesJump true md := by
  cases md <;> rfl

theorem linesOf_jnz (z : Bool) (md : Mode) : linesOf z .jnz md = linesJump (!z) md := by
  cases z <;> cases md <;> rfl

theorem linesOf_jz (z : Bool) (md : Mode) : linesOf z .jz md = linesJump z md := by
  cases z <;> cases md <;> rfl

theorem run_linesJump (m : MicroState) (taken : Bool) {md : Mode} {n : Byte}
    (hn : md.hasByte2 = true → n = m.cpu.cell m.cpu.ip) :
    (runTransfers (linesJump taken md).flatten m).cpu = jumpOf taken n m.cpu md := by
  cases taken with
  | false => cases md <;> rfl
  | true =>
    cases md with
    | direct =>
      obtain rfl := hn rfl
      rfl
    | regA | regR | indirect | immediate => rfl

/-! ### The lines of an instruction -/

theorem operandOf_a (n : Byte) (s : State) (md : Mode) : (operandOf n s md).2.a = s.a := by
  cases md <;> rfl

theorem addressOf_a (n : Byte) (s : State) (md : Mode) : (addressOf n s md).2.a = s.a := by
  cases md <;> rfl

theorem addressOf_r (n : Byte) (s : State) (md : Mode) : (addressOf n s md).2.r = s.r := by
  cases md <;> rfl

/-- The transfers of an operation have its effect, from any contents of the latches, when byte 2 is what stands at
IP. -/
theorem run_linesOf (m : MicroState) {o : Operation} {md : Mode} {n : Byte} (hlisted : listed o md = true)
    (hn : md.hasByte2 = true → n = m.cpu.cell m.cpu.ip) :
    (runTransfers (linesOf m.cpu.z o md).flatten m).cpu = effectOf n m.cpu o md := by
  obtain ⟨hcpu, hoperand⟩ := run_linesOperand m hn
  cases o with
  | add | sub | or =>
    rw [linesOf, List.flatten_append, runTransfers_append, run_linesAlu, hcpu, hoperand, operandOf_a]
    rfl
  | dec | shl =>
    rw [linesOf, List.flatten_append, runTransfers_append, run_linesThroughA, hcpu, hoperand]
    rfl
  | inv =>
    rw [linesOf, List.flatten_append, runTransfers_append, run_linesInv, hcpu, hoperand]
    rfl
  | inp =>
    obtain ⟨hcpu, hor⟩ := run_linesAddress m hn (direct_or_indirect_of_listed (by decide) hlisted)
    rw [linesOf, List.append_assoc, List.flatten_append, runTransfers_append, run_linesPortRead, hcpu, hor]
    rfl
  | out =>
    obtain ⟨hcpu, hor⟩ := run_linesAddress m hn (direct_or_indirect_of_listed (by decide) hlisted)
    rw [linesOf, List.flatten_append, runTransfers_append, run_linesPortWrite, hcpu, hor, addressOf_a]
    rfl
  | sta =>
    obtain ⟨hcpu, hor⟩ := run_linesAddress m hn (direct_or_indirect_of_listed (by decide) hlisted)
    rw [linesOf, List.flatten_append, runTransfers_append, run_linesOperandWrite_a, hcpu, hor, addressOf_a]
    rfl
  | str =>
    obtain ⟨hcpu, hor⟩ := run_linesAddress m hn (direct_or_indirect_of_listed (by decide) hlisted)
    rw [linesOf, List.flatten_append, runTransfers_append, run_linesOperandWrite_r, hcpu, hor, addressOf_r]
    rfl
  | lda | ldr =>
    cases md with
    | regA | regR => rfl
    | direct | indirect | immediate =>
      simp only [linesOf, List.flatten_append, runTransfers_append, effectOf, ← hcpu, ← hoperand]
      rfl
  | cmp =>
    cases md with
    | regA =>
      have hself : compareZ m.cpu.a m.cpu.a = true := compareZ_eq_true.mpr rfl
      rw [effectOf, operandOf, operandA_eq, hself]
      rfl
    | direct | regR | indirect | immediate =>
      simp only [linesOf, List.flatten_append, runTransfers_append, effectOf, ← hcpu, ← hoperand]
      rfl
  | jmp => exact (linesOf_jmp m.cpu.z md).symm ▸ run_linesJump m true hn
  | jnz => exact (linesOf_jnz m.cpu.z md).symm ▸ run_linesJump m _ hn
  | jz => exact (linesOf_jz m.cpu.z md).symm ▸ run_linesJump m _ hn

/-- Byte 2 of what is decoded at IP is what a read at IP gives after FETCH. -/
theorem byte2_of_decode {s : State} {i : Instr} {rest : List Byte} (h : decode s.fetchBytes = .ok (i, rest))
    {o : Operation} {md : Mode} {byte2 : Option Byte} (hform : i.form = .op o md byte2) (hmd : md.hasByte2 = true) :
    byte2.getD 0#8 = s.fetchPhase.cell s.fetchPhase.ip := by
  obtain ⟨hwf, hbytes⟩ := encodeOfDecode _ _ _ h
  simp only [Instr.WellFormed, hform, Form.wf, hmd, Bool.and_eq_true, beq_iff_eq] at hwf
  obtain ⟨-, hsome⟩ := hwf
  obtain ⟨n, rfl⟩ := Option.isSome_iff_exists.mp hsome
  simp only [encode, hform, Form.bytes, State.fetchBytes, Option.toList_some, List.cons_append, List.nil_append,
    List.cons.injEq] at hbytes
  obtain ⟨-, hn, -⟩ := hbytes
  exact hn.symm

/-- The lines after FETCH do what the meaning does. -/
theorem exec_eq_runLines {m : MicroState} {i : Instr}
    (hn : ∀ o md byte2, i.form = .op o md byte2 → md.hasByte2 = true → byte2.getD 0#8 = m.cpu.cell m.cpu.ip) :
    exec i m.cpu = .next (runLines (executeLines m.cpu.z i.form) m).cpu := by
  have hfigure : clockFigure m.cpu.z i - 3 = (executeLines m.cpu.z i.form).length := by
    rw [clockCyclesCountMicroLines, Nat.add_sub_cancel_left]
  have htransfers : (runTransfers (executeLines m.cpu.z i.form).flatten m).cpu = effectOfForm m.cpu i.form := by
    rcases hform : i.form with _ | ⟨o, md, byte2⟩
    · rfl
    · exact run_linesOf m (listed_of_form hform) (hn o md byte2 hform)
  rw [exec_eq_effect, hfigure, runLines_eq_ticks, MicroState.ticks, htransfers]

/-- Settles O43: the lines of FETCH reach the state FETCH leaves, and those of the instruction its effect. -/
theorem microProgramsReachTheStep : Obligations.MicroProgramsReachTheStep := by
  intro m i rest h
  have hfetch := runLines_linesFetch_cpu m
  have hexec := exec_eq_runLines (m := runLines linesFetch m) (i := i) fun o md byte2 hform hmd => by
    rw [hfetch]
    exact byte2_of_decode h hform hmd
  rw [hfetch] at hexec
  rw [step_of_decode h, hexec, microProgram, runLines_append]
  rfl

end Sys2Proof.Machine

/-! What every step keeps of memory, its map and the trace (20_memory.md sections 3 and 6): what every transfer keeps,
since a step is the transfers of its micro-program. -/

namespace Sys2Proof.Machine

open Sys2Proof

/-! ### From transfers to steps and runs -/

/-- `P` speaks of memory, the address map and the trace alone, and each kind of access keeps it. -/
structure KeptByAccesses (P : State → Prop) : Prop where
  congr : ∀ {s t : State}, P s → t.mem = s.mem → t.memMap = s.memMap → t.trace = s.trace → P t
  memRead : ∀ (s : State) (p : Addr), P s → P (s.memRead p).2
  memWrite : ∀ (s : State) (p : Addr) (v : Byte), P s → P (s.memWrite p v)
  port : ∀ (s : State) (e : Event), e.isPort = true → P s → P (s.record e)

section Kept

variable {P : State → Prop} (hP : KeptByAccesses P)

include hP

theorem KeptByAccesses.transfer (x : Transfer) (m : MicroState) (h : P m.cpu) : P (x.run m).cpu := by
  cases x with
  | drFromMemData => exact hP.memRead _ _ h
  | assertMemw => exact hP.memWrite _ _ _ h
  | drFromPortData => exact hP.port { m.cpu with portScript := m.cpu.portScript.tail } _ rfl (hP.congr h rfl rfl rfl)
  | assertIow => exact hP.port _ _ rfl h
  | _ => exact hP.congr h rfl rfl rfl

theorem KeptByAccesses.transfers :
    ∀ (xs : List Transfer) (m : MicroState), P m.cpu → P (runTransfers xs m).cpu
  | [], _, h => h
  | x :: xs, m, h => KeptByAccesses.transfers xs (x.run m) (hP.transfer x m h)

theorem KeptByAccesses.lines (ls : List Line) (m : MicroState) (h : P m.cpu) : P (runLines ls m).cpu := by
  rw [runLines_eq_ticks]
  exact hP.congr (hP.transfers ls.flatten m h) rfl rfl rfl

/-- What the latches hold before the step does not matter. -/
theorem KeptByAccesses.step {s t : State} (h : P s) (hstep : step s = .next t) : P t := by
  obtain ⟨i, rest, hdecode, -⟩ := step_next hstep
  have hmicro := microProgramsReachTheStep ⟨s, 0, 0, 0, 0, 0, 0, 0, 0, 0, 0⟩ i rest hdecode
  obtain rfl := Host.Outcome.next.inj (hstep.symm.trans hmicro)
  exact hP.lines _ _ h

theorem KeptByAccesses.runs :
    ∀ (k : Nat) {s t : State}, P s → Runs k s t → P t
  | 0, _, _, h, hrun => hrun ▸ h
  | k + 1, _, _, h, ⟨_, hstep, hrun⟩ => KeptByAccesses.runs k (hP.step h hstep) hrun

end Kept

/-! ### The canonical form -/

theorem inv_keptByAccesses : KeptByAccesses State.Inv where
  congr h hmem _ _ := by rw [State.Inv, hmem]; exact h
  memRead _ _ h := h
  memWrite _ _ _ h := State.memWrite_wf h
  port _ _ _ h := h

/-- Settles O46: each access keeps the form. -/
theorem stepKeepsMemoryForm : Obligations.StepKeepsMemoryForm :=
  fun _ _ hinv hstep => inv_keptByAccesses.step hinv hstep

/-! ### The address map and the cells that are not ram -/

/-- `t` has the address map of `s`, and each cell that is not ram as in `s`. -/
def SameRom (s t : State) : Prop :=
  t.memMap = s.memMap ∧ ∀ p : Addr, s.kindAt p ≠ .ram → t.mem.read p.toNat = s.mem.read p.toNat

theorem kindAt_eq_of_memMap_eq {s t : State} (h : t.memMap = s.memMap) (p : Addr) : t.kindAt p = s.kindAt p := by
  simp only [State.kindAt, h]

theorem sameRom_keptByAccesses (s : State) : KeptByAccesses (SameRom s) where
  congr h hmem hmap _ := by
    obtain ⟨hmap', hread⟩ := h
    exact ⟨hmap.trans hmap', by simpa only [hmem] using hread⟩
  memRead _ _ h := h
  memWrite u q v h := by
    obtain ⟨hmap, hread⟩ := h
    refine ⟨(State.memWrite_memMap u q v).trans hmap, fun p hp => ?_⟩
    rw [State.memWrite_read_ne ?_ v, hread p hp]
    rintro hram hpq
    obtain rfl := BitVec.eq_of_toNat_eq hpq
    exact hp ((kindAt_eq_of_memMap_eq hmap p).symm.trans hram)
  port _ _ _ h := h

/-- Settles O48: each access leaves the map and the cells that are not ram, over the transfers of any number of steps. -/
theorem runKeepsMapAndRom : Obligations.RunKeepsMapAndRom :=
  fun k s _ hrun => (sameRom_keptByAccesses s).runs k ⟨rfl, fun _ _ => rfl⟩ hrun

/-! ### Memory and trace -/

theorem cellAfter_memWrite (init : Addr → Byte) (p : Addr) (v : Byte) (es : List Event) (x : Addr) :
    cellAfter init (.memWrite p v :: es) x = if p = x then v else cellAfter init es x := by
  simp only [cellAfter, lastWrite]
  split <;> rfl

theorem coherent_memRead {init : Addr → Byte} {s : State} (p : Addr) (h : Coherent init s) :
    Coherent init (s.memRead p).2 := by
  obtain ⟨hcells, hreads⟩ := h
  refine ⟨hcells, fun hram => ?_, hreads⟩
  have hram : s.kindAt p = .ram := hram
  exact (State.cell_of_fitted (hram.trans_ne (by decide))).trans (hcells p hram)

theorem coherent_port {init : Addr → Byte} {s : State} {e : Event} (he : e.isPort = true) (h : Coherent init s) :
    Coherent init (s.record e) := by
  obtain ⟨hcells, hreads⟩ := h
  cases e with
  | memRead | memWrite => cases he
  | portRead | portWrite => exact ⟨hcells, hreads⟩

/-- The write becomes the most recent one to its address, and the cell there takes it if it is ram. -/
theorem coherent_memWrite {init : Addr → Byte} {s : State} (p : Addr) (v : Byte) (hinv : s.Inv) (h : Coherent init s) :
    Coherent init (s.memWrite p v) := by
  obtain ⟨hcells, hreads⟩ := h
  refine ⟨fun x hram => ?cells, ?reads⟩
  case cells =>
    rw [State.memWrite_kindAt] at hram
    rw [State.memWrite_trace, cellAfter_memWrite]
    split
    · subst x
      exact State.memWrite_read_same hram hinv v
    · rw [State.memWrite_read_ne (fun _ hx => ‹p ≠ x› (BitVec.eq_of_toNat_eq hx).symm), hcells x hram]
  case reads =>
    simp only [State.memWrite_trace, State.memWrite_kindAt]
    exact hreads

theorem coherent_keptByAccesses (init : Addr → Byte) : KeptByAccesses fun s => s.Inv ∧ Coherent init s where
  congr h hmem hmap htrace := by
    simpa only [State.Inv, Coherent, State.kindAt, hmem, hmap, htrace] using h
  memRead _ p := fun ⟨hinv, hcoherent⟩ => ⟨hinv, coherent_memRead p hcoherent⟩
  memWrite _ p v := fun ⟨hinv, hcoherent⟩ => ⟨State.memWrite_wf hinv, coherent_memWrite p v hinv hcoherent⟩
  port _ _ he := fun ⟨hinv, hcoherent⟩ => ⟨hinv, coherent_port he hcoherent⟩

/-- Settles O49: each access keeps the agreement, a write by what is read after it in canonical form. -/
theorem stepKeepsCoherence : Obligations.StepKeepsCoherence :=
  fun init _ _ hinv hcoherent hstep => ((coherent_keptByAccesses init).step ⟨hinv, hcoherent⟩ hstep).2

end Sys2Proof.Machine

/-! FETCH and IN (40_fetch.md section 2, 41_input_output.md section 2). -/

namespace Sys2Proof.Machine

open Sys2Proof

theorem exec_fetch_eq (s : State) : exec .fetch s = .next (s.spend 0) := rfl

/-- Settles O12: FETCH spends no clock cycle after the three of its phase. -/
theorem fetchIsNoOperation : Obligations.FetchIsNoOperation :=
  fun s h => step_onlySpends rfl h (exec_fetch_eq s.fetchPhase)

theorem exec_inAddress_eq (n : Byte) (s : State) : exec (.inAddress n) s = inTo (operandPortDirect n s) 9 := rfl

theorem exec_inP_eq (s : State) : exec .inP s = inTo (operandPortIndirect s) 7 := rfl

/-- A port read takes the next answer PORT_ENV has fixed, whatever the port. -/
theorem readsPort_portByte {s t : State} (h : t.portScript = s.portScript) (p : Addr) : ReadsPort s (t.portByte p) :=
  fun _ _ hscript => State.portByte_of_script (h.trans hscript)

theorem portRead_setA_unchangedBut (s : State) (p : Addr) (v : Byte) :
    UnchangedBut [.a, .ports] s ((s.portRead p).2.setA v) := by
  simp [UnchangedBut]

/-- 41_input_output.md R91. -/
theorem step_inAddress {s : State} {n : Byte} (h : Fetches s [0x08#8, n]) :
    ∃ v t, ReadsPort s v ∧
      StepRuns s (.inAddress n) 0x08#8 [.memRead s.ip 0x08#8, .memRead (s.ip + 1#8) n, .portRead n v] 9 t ∧
      t.a = v ∧ t.ip = s.ip + 2#8 ∧ t.portScript = s.portScript.tail ∧ UnchangedBut [.a, .ports] s t := by
  refine ⟨(s.fetchPhase.takeByte2 n).portByte n, _, readsPort_portByte (by simp) n,
    stepRuns_of_exec (step_of_fetches_two rfl h) (cell_of_fetches h)
      ((exec_inAddress_eq n _).trans (inTo_eq _ 9)) ?ir ?trace ?clock, ?a, ?ip, ?script, ?frame⟩
  case ir => simp
  case trace => simp
  case clock => simp
  case a => simp
  case ip => simp [ip_add_one_add_one]
  case script => simp
  case frame =>
    exact (((fetchPhase_unchangedBut _ s).trans (takeByte2_unchangedBut _ _ n)).trans
      (portRead_setA_unchangedBut _ n _)).trans (spend_unchangedBut _ _ _)

/-- 41_input_output.md R92. -/
theorem step_inP {s : State} (h : Fetches s [0x0C#8]) :
    ∃ v t, ReadsPort s v ∧ StepRuns s .inP 0x0C#8 [.memRead s.ip 0x0C#8, .portRead s.r v] 7 t ∧
      t.a = v ∧ t.ip = s.ip + 1#8 ∧ t.portScript = s.portScript.tail ∧ UnchangedBut [.a, .ports] s t := by
  refine ⟨s.fetchPhase.portByte s.r, _, readsPort_portByte (by simp) s.r,
    stepRuns_of_exec (step_of_fetches_one rfl h) (cell_of_fetches h)
      ((exec_inP_eq _).trans (inTo_eq _ 7)) ?ir ?trace ?clock, ?a, ?ip, ?script, ?frame⟩
  case ir => simp
  case trace => simp
  case clock => simp
  case a => simp
  case ip => simp
  case script => simp
  case frame =>
    exact ((fetchPhase_unchangedBut _ s).trans (portRead_setA_unchangedBut _ s.r _)).trans (spend_unchangedBut _ _ _)

/-- Settles O13: both forms of IN, each by running its meaning on the state FETCH leaves. -/
theorem inLoadsPortByte : Obligations.InLoadsPortByte :=
  ⟨fun _ _ h => step_inAddress h, fun _ h => step_inP h⟩

end Sys2Proof.Machine

/-! STA and STR (43_data_transfer.md sections 4 and 5). -/

namespace Sys2Proof.Machine

open Sys2Proof

theorem exec_staAddress_eq (n : Byte) (s : State) : exec (.staAddress n) s = storeDirect n s.a s := rfl

theorem exec_staM_eq (s : State) : exec .staM s = storeIndirect s.a s := rfl

theorem exec_strAddress_eq (n : Byte) (s : State) : exec (.strAddress n) s = storeDirect n s.r s := rfl

theorem exec_strM_eq (s : State) : exec .strM s = storeIndirect s.r s := rfl

theorem memWrite_storesAt (s : State) (p : Addr) (v : Byte) : StoresAt p v s (s.memWrite p v) := by
  refine ⟨?frame, fun hram hinv => State.memWrite_read_same hram hinv v, fun hram => ?elsewhere⟩
  case frame =>
    have hcells : ∀ j, Part.cell j ∉ [Part.cell p.toNat] → (s.memWrite p v).mem.read j = s.mem.read j :=
      fun j hj => State.memWrite_read_ne (fun _ hjp => hj (by simp [hjp])) v
    exact ⟨fun _ => by simp, fun _ => by simp, fun _ => by simp, hcells, fun _ => by simp, by simp⟩
  case elsewhere => rw [State.memWrite_mem, if_neg hram]

/-- The reads before a store and the clock cycles after it are no part of what `StoresAt` speaks of. -/
theorem StoresAt.of_same {p : Addr} {v : Byte} {s s' t' : State} (h : StoresAt p v s' t')
    (hs : UnchangedBut [] s s') (hmem : s'.mem = s.mem) (k : Nat) : StoresAt p v s (t'.spend k) := by
  obtain ⟨hframe, hram, helsewhere⟩ := h
  have hkind : s'.kindAt p = s.kindAt p := by
    obtain ⟨-, -, -, -, -, hmap⟩ := hs
    exact kindAt_eq_of_memMap_eq hmap p
  rw [hkind] at hram helsewhere
  refine ⟨((hs.mono (List.nil_subset _)).trans hframe).trans (spend_unchangedBut _ _ k), fun hk hinv => ?_,
    fun hk => (helsewhere hk).trans hmem⟩
  exact hram hk (by rw [State.Inv, hmem]; exact hinv)

/-- A store in direct mode of a register that FETCH leaves alone. -/
theorem step_storeDirect {s : State} {b n v : Byte} {f : Byte → Instr} (row : lookup b rows = some (.two f))
    (h : Fetches s [b, n]) (hexec : exec (f n) s.fetchPhase = storeDirect n v s.fetchPhase) :
    ∃ t, StepRuns s (f n) b [.memRead s.ip b, .memRead (s.ip + 1#8) n, .memWrite n v] 9 t ∧
      t.ip = s.ip + 2#8 ∧ StoresAt (eaDirect n) v s t := by
  refine ⟨_, stepRuns_of_exec (step_of_fetches_two row h) (cell_of_fetches h)
    (hexec.trans (storeDirect_eq n v _)) ?ir ?trace ?clock, ?ip, ?stores⟩
  case ir => simp
  case trace => simp
  case clock => simp
  case ip => simp [ip_add_one_add_one]
  case stores =>
    exact (memWrite_storesAt _ n v).of_same
      ((fetchPhase_unchangedBut _ s).trans (takeByte2_unchangedBut _ _ n)) (by simp) _

/-- A store in indirect mode of a register that FETCH leaves alone. -/
theorem step_storeIndirect {s : State} {b v : Byte} {i : Instr} (row : lookup b rows = some (.one i))
    (h : Fetches s [b]) (hexec : exec i s.fetchPhase = storeIndirect v s.fetchPhase) :
    ∃ t, StepRuns s i b [.memRead s.ip b, .memWrite s.r v] 7 t ∧
      t.ip = s.ip + 1#8 ∧ StoresAt (eaIndirect s.fetchPhase) v s t := by
  refine ⟨_, stepRuns_of_exec (step_of_fetches_one row h) (cell_of_fetches h)
    (hexec.trans (storeIndirect_eq v _)) ?ir ?trace ?clock, ?ip, ?stores⟩
  case ir => simp
  case trace => simp
  case clock => simp
  case ip => simp
  case stores => exact (memWrite_storesAt _ s.r v).of_same (fetchPhase_unchangedBut _ s) (by simp) _

/-- Settles O22: the two stores of A. -/
theorem staStoresA : Obligations.StaStoresA :=
  ⟨fun _ n h => step_storeDirect rfl h (exec_staAddress_eq n _),
   fun _ h => step_storeIndirect rfl h (exec_staM_eq _)⟩

/-- Settles O23: the two stores of R. -/
theorem strStoresR : Obligations.StrStoresR :=
  ⟨fun _ n h => step_storeDirect rfl h (exec_strAddress_eq n _),
   fun _ h => step_storeIndirect rfl h (exec_strM_eq _)⟩

/-- 20_memory.md R53: FETCH reads what a store to ram has left at IP. -/
theorem fetchPhase_ir_of_storesAt {p : Addr} {v : Byte} {s t : State} (h : StoresAt p v s t) (hip : t.ip = p)
    (hkind : s.kindAt p = .ram) (hinv : s.Inv) : t.fetchPhase.ir = v := by
  obtain ⟨⟨-, -, -, -, -, hmap⟩, hram, -⟩ := h
  have hkind' : t.kindAt p = .ram := (kindAt_eq_of_memMap_eq hmap p).trans hkind
  rw [State.fetchPhase_ir, hip, State.cell_of_fitted (hkind'.trans_ne (by decide))]
  exact hram hkind hinv

/-- Settles O51: each store leaves IP at its effective address. -/
theorem storeIsSeenByTheNextFetch : Obligations.StoreIsSeenByTheNextFetch := by
  obtain ⟨hstaDirect, hstaIndirect⟩ := staStoresA
  obtain ⟨hstrDirect, hstrIndirect⟩ := strStoresR
  intro s n hinv
  refine ⟨fun h hn hkind => ?_, fun h hr hkind => ?_, fun h hn hkind => ?_, fun h hr hkind => ?_⟩
  · obtain ⟨t, ⟨hstep, -⟩, hip, hstores⟩ := hstaDirect s n h
    exact ⟨t, hstep, fetchPhase_ir_of_storesAt hstores (hip.trans hn.symm) hkind hinv⟩
  · obtain ⟨t, ⟨hstep, -⟩, hip, hstores⟩ := hstaIndirect s h
    exact ⟨t, hstep, fetchPhase_ir_of_storesAt hstores (hip.trans hr.symm) hkind hinv⟩
  · obtain ⟨t, ⟨hstep, -⟩, hip, hstores⟩ := hstrDirect s n h
    exact ⟨t, hstep, fetchPhase_ir_of_storesAt hstores (hip.trans hn.symm) hkind hinv⟩
  · obtain ⟨t, ⟨hstep, -⟩, hip, hstores⟩ := hstrIndirect s h
    exact ⟨t, hstep, fetchPhase_ir_of_storesAt hstores (hip.trans hr.symm) hkind hinv⟩

end Sys2Proof.Machine

/-! ADD, SUB and DEC (44_arithmetic.md), and the instructions that do the same as another or nothing. -/

namespace Sys2Proof.Machine

open Sys2Proof

/-! ### What each operation leaves in A -/

theorem addTo_leavesInA : LeavesInA addTo fun a v w => w.toNat = (a.toNat + v.toNat) % 256 :=
  fun o k => ⟨_, BitVec.toNat_add o.2.a o.1, addTo_eq o k⟩

theorem toNat_sub_byte (a v : Byte) : (a - v).toNat = (256 + a.toNat - v.toNat) % 256 := by
  have hv : v.toNat < 256 := v.isLt
  rw [BitVec.toNat_sub]
  congr 1
  omega

theorem subFrom_leavesInA : LeavesInA subFrom fun a v w => w.toNat = (256 + a.toNat - v.toNat) % 256 :=
  fun o k => ⟨_, toNat_sub_byte o.2.a o.1, subFrom_eq o k⟩

/-- `w` is `v` less one, modulo 256. -/
def Predecessor (v w : Byte) : Prop := w.toNat = (v.toNat + 255) % 256

theorem predecessor_sub_one (v : Byte) : Predecessor v (v - 1#8) := by
  rw [Predecessor, toNat_sub_byte, BitVec.toNat_ofNat]
  omega

theorem decTo_leavesInA : LeavesInA decTo fun _ => Predecessor :=
  fun o k => ⟨_, predecessor_sub_one o.1, decTo_eq o k⟩

/-! ### ADD -/

theorem exec_addAddress_eq (n : Byte) (s : State) : exec (.addAddress n) s = addTo (operandDirect n s) 9 := rfl

theorem exec_addA_eq (s : State) : exec .addA s = addTo (operandA s) 4 := rfl

theorem exec_addR_eq (s : State) : exec .addR s = addTo (operandR s) 4 := rfl

theorem exec_addM_eq (s : State) : exec .addM s = addTo (operandIndirect s) 7 := rfl

theorem exec_addImm_eq (n : Byte) (s : State) : exec (.addImm n) s = addTo (operandImmediate n s) 6 := rfl

/-- Settles O25: the five modes, each the sum with its operand. -/
theorem addIsSumModulo256 : Obligations.AddIsSumModulo256 :=
  ⟨fun _ n h => step_leavesInA_direct (extra := 6) addTo_leavesInA rfl h (exec_addAddress_eq n _),
   fun _ h => step_leavesInA_register (extra := 1) addTo_leavesInA rfl h (exec_addA_eq _),
   fun _ h => step_leavesInA_register (extra := 1) addTo_leavesInA rfl h (exec_addR_eq _),
   fun _ h => step_leavesInA_indirect (extra := 4) addTo_leavesInA rfl h (exec_addM_eq _),
   fun _ n h => step_leavesInA_immediate (extra := 3) addTo_leavesInA rfl h (exec_addImm_eq n _)⟩

/-! ### SUB -/

theorem exec_subAddress_eq (n : Byte) (s : State) : exec (.subAddress n) s = subFrom (operandDirect n s) 9 := rfl

theorem exec_subA_eq (s : State) : exec .subA s = subFrom (operandA s) 4 := rfl

theorem exec_subR_eq (s : State) : exec .subR s = subFrom (operandR s) 4 := rfl

theorem exec_subM_eq (s : State) : exec .subM s = subFrom (operandIndirect s) 7 := rfl

theorem exec_subImm_eq (n : Byte) (s : State) : exec (.subImm n) s = subFrom (operandImmediate n s) 6 := rfl

/-- 44_arithmetic.md R157: A less itself is 00h. -/
theorem step_subA {s : State} (h : Fetches s [0x6A#8]) :
    ∃ t, StepRuns s .subA 0x6A#8 [.memRead s.ip 0x6A#8] 4 t ∧ t.a = 0x00#8 ∧ t.ip = s.ip + 1#8 ∧
      UnchangedBut [.a] s t := by
  obtain ⟨t, hruns, ha, hrest⟩ :=
    step_leavesInA_register (extra := 1) subFrom_leavesInA rfl h (exec_subA_eq _)
  refine ⟨t, hruns, BitVec.eq_of_toNat_eq ?_, hrest⟩
  simpa using ha

/-- Settles O26: four modes, each the difference from its operand. -/
theorem subIsDifferenceModulo256 : Obligations.SubIsDifferenceModulo256 :=
  ⟨fun _ n h => step_leavesInA_direct (extra := 6) subFrom_leavesInA rfl h (exec_subAddress_eq n _),
   fun _ h => step_subA h,
   fun _ h => step_leavesInA_register (extra := 1) subFrom_leavesInA rfl h (exec_subR_eq _),
   fun _ h => step_leavesInA_indirect (extra := 4) subFrom_leavesInA rfl h (exec_subM_eq _)⟩

/-- Settles O27: the immediate mode of SUB. -/
theorem subImmediateIsDifference : Obligations.SubImmediateIsDifference :=
  fun _ n h => step_leavesInA_immediate (extra := 3) subFrom_leavesInA rfl h (exec_subImm_eq n _)

/-! ### DEC -/

theorem exec_decAddress_eq (n : Byte) (s : State) : exec (.decAddress n) s = decTo (operandDirect n s) 11 := rfl

theorem exec_decA_eq (s : State) : exec .decA s = decTo (operandA s) 4 := rfl

theorem exec_decR_eq (s : State) : exec .decR s = .next (((s.setA (s.r - 1#8)).setR (s.r - 1#8)).spend 4) := rfl

theorem exec_decM_eq (s : State) : exec .decM s = decTo (operandIndirect s) 9 := rfl

theorem exec_decImm_eq (n : Byte) (s : State) : exec (.decImm n) s = decTo (operandImmediate n s) 8 := rfl

/-- Settles O28: four modes leave the predecessor of their operand in A, and DEC R leaves it in both registers. -/
theorem decIsPredecessorModulo256 : Obligations.DecIsPredecessorModulo256 :=
  ⟨fun _ n h => step_leavesInA_direct (extra := 8) decTo_leavesInA rfl h (exec_decAddress_eq n _),
   fun _ h => step_leavesInA_register (extra := 1) decTo_leavesInA rfl h (exec_decA_eq _),
   fun s h => step_setBoth rfl h (exec_decR_eq _) (predecessor_sub_one s.r),
   fun _ h => step_leavesInA_indirect (extra := 6) decTo_leavesInA rfl h (exec_decM_eq _),
   fun _ n h => step_leavesInA_immediate (extra := 5) decTo_leavesInA rfl h (exec_decImm_eq n _)⟩

/-! ### Instructions that do the same as another, or nothing -/

/-- Settles O19: a taken jump is a jump whose condition is met, as JMP's always is. -/
theorem takenConditionalIsJmp : Obligations.TakenConditionalIsJmp := by
  refine fun s n => ⟨fun hz => ⟨?_, ?_⟩, fun hz => ⟨?_, ?_⟩⟩
  · rw [exec_jnzAddress_eq, exec_jmpAddress_eq, hz, Bool.not_false]
  · rw [exec_jnzR_eq, exec_jmpR_eq, hz, Bool.not_false]
  · rw [exec_jzAddress_eq, exec_jmpAddress_eq, hz]
  · rw [exec_jzR_eq, exec_jmpR_eq, hz]

/-- Settles O32: doubling a byte shifts it left by one. -/
theorem addAEqualsShlA : Obligations.AddAEqualsShlA := by
  intro s
  have hdouble : s.a + s.a = shl8 s.a := by
    rw [shl8_eq]
    bv_omega
  rw [exec_addA_eq, exec_shlA_eq, addTo_eq, shlTo_eq, operandA_eq, hdouble]

/-- Settles O33: the complement of the complement is the byte itself. -/
theorem invATwiceRestoresA : Obligations.InvATwiceRestoresA := by
  intro s
  have hinv : ∀ u : State, exec .invA u = .next ((u.setA (~~~u.a)).spend 1) := fun _ => rfl
  refine ⟨_, _, hinv s, hinv _, ?frame, by simp⟩
  simp [UnchangedBut]

/-- A one-byte instruction that only lets clock cycles pass leaves memory as it is. -/
theorem step_movesOnlyIp {s : State} {i : Instr} {b : Byte} {extra : Nat} (row : lookup b rows = some (.one i))
    (h : Fetches s [b]) (hexec : exec i s.fetchPhase = .next (s.fetchPhase.spend extra)) :
    ∃ t, step s = .next t ∧ t.ip = s.ip + 1#8 ∧ t.mem = s.mem ∧ UnchangedBut [] s t := by
  obtain ⟨t, ⟨hstep, hexec', -⟩, hip, hframe⟩ := step_onlySpends row h hexec
  obtain rfl := Host.Outcome.next.inj (hexec'.symm.trans hexec)
  exact ⟨_, hstep, hip, rfl, hframe⟩

/-- Settles O24: the four do nothing but let clock cycles pass. -/
theorem noOperationsMoveOnlyIp : Obligations.NoOperationsMoveOnlyIp := by
  intro s b hb h
  fin_cases hb
  · exact step_movesOnlyIp rfl h (exec_ldaA_eq _)
  · exact step_movesOnlyIp rfl h (exec_ldrR_eq _)
  · exact step_movesOnlyIp rfl h (exec_orA_eq _)
  · exact step_movesOnlyIp rfl h (exec_fetch_eq _)

end Sys2Proof.Machine

/-! Reset and the end of a run (70_reset_and_hazards.md sections 1 and 3). -/

namespace Sys2Proof.Machine

open Sys2Proof

/-- Settles O52: the opcode read is the oldest access a step adds, and after reset there is none before it. -/
theorem firstFetchIsAtResetIp : Obligations.FirstFetchIsAtResetIp := by
  refine ⟨fun b t h => ?_, rfl, fun _ => rfl⟩
  obtain ⟨later, htrace, -⟩ := atMostThreeAccessesWriteLast _ t h
  exact ⟨later, _, htrace⟩

/-! ### Halted states are the jumps to themselves -/

theorem fetches_of_decode {s : State} {i : Instr} {rest : List Byte} (h : decode s.fetchBytes = .ok (i, rest)) :
    Fetches s (encode i) := by
  obtain ⟨-, hbytes⟩ := encodeOfDecode _ _ _ h
  rw [Fetches, hbytes, List.take_left]

/-- A jump to the old IP leaves the rest of the machine alone, so it halts. -/
theorem isHalted_of_stepRuns {s t : State} {i : Instr} {b : Byte} {accesses : List Event} {clocks : Nat}
    (hruns : StepRuns s i b accesses clocks t) (hframe : UnchangedBut [] s t) (hmem : writesMem i = false)
    (hip : t.ip = s.ip) : IsHalted s := by
  obtain ⟨hstep, hexec, -⟩ := hruns
  obtain ⟨ha, hr, hz, -⟩ := hframe
  obtain ⟨-, -, -, hkept⟩ := onlyListedWriters i _ t hexec
  exact ⟨t, hstep, ha List.not_mem_nil, hr List.not_mem_nil, hip, hz List.not_mem_nil, hkept hmem⟩

theorem isHalted_of_selfJump {s : State} (h : SelfJump s) : IsHalted s := by
  obtain ⟨hjmp, hjmpR⟩ := jmpLoadsIp
  obtain ⟨hjnz, -, hjnzR⟩ := jnzJumpsWhenZClear
  obtain ⟨hjz, -, hjzR⟩ := jzJumpsWhenZSet
  rcases h with h | ⟨h, hr⟩ | ⟨h, hz⟩ | ⟨h, hz⟩ | ⟨h, hr, hz⟩ | ⟨h, hr, hz⟩
  · obtain ⟨t, hruns, hip, hframe⟩ := hjmp s s.ip h
    exact isHalted_of_stepRuns hruns hframe rfl hip
  · obtain ⟨t, hruns, hip, hframe⟩ := hjmpR s h
    exact isHalted_of_stepRuns hruns hframe rfl (hip.trans hr)
  · obtain ⟨t, hruns, hip, hframe⟩ := hjnz s s.ip h hz
    exact isHalted_of_stepRuns hruns hframe rfl hip
  · obtain ⟨t, hruns, hip, hframe⟩ := hjz s s.ip h hz
    exact isHalted_of_stepRuns hruns hframe rfl hip
  · obtain ⟨t, hruns, hip, hframe⟩ := hjnzR s h
    exact isHalted_of_stepRuns hruns hframe rfl (by rw [hip, if_pos hz, hr])
  · obtain ⟨t, hruns, hip, hframe⟩ := hjzR s h
    exact isHalted_of_stepRuns hruns hframe rfl (by rw [hip, if_pos hz, hr])

theorem length_eq_one_or_two (i : Instr) : i.length = 1 ∨ i.length = 2 := by
  rw [lengthOfMode i]
  split
  · exact .inl rfl
  · split
    · exact .inr rfl
    · exact .inl rfl

/-- Only a jump can bring IP back to where FETCH found it. -/
theorem isJump_of_ip_eq {i : Instr} {s t : State} (h : exec i s.fetchPhase = .next t) (hip : t.ip = s.ip) :
    isJump i = true := by
  by_contra hno
  have hnext := exec_ip h (eq_false_of_ne_true hno)
  rw [hip, State.fetchPhase_ip] at hnext
  rcases length_eq_one_or_two i with hlength | hlength
  · rw [hlength] at hnext
    bv_omega
  · rw [hlength] at hnext
    bv_omega

/-- Two steps past IP is not IP: a direct jump that is not taken goes on. -/
theorem ip_add_two_ne (p : Addr) : p + 2#8 ≠ p := by
  bv_omega

/-- A register jump that stays at IP is taken, and to IP. -/
theorem taken_of_ip_eq {c : Prop} [Decidable c] {p r : Addr} (h : (if c then r else p + 1#8) = p) : c ∧ r = p := by
  split at h
  · exact ⟨‹c›, h⟩
  · bv_omega

theorem selfJump_of_isHalted {s : State} (h : IsHalted s) : SelfJump s := by
  obtain ⟨t, hstep, -, -, hip, -, -⟩ := h
  obtain ⟨i, rest, hdecode, hexec⟩ := step_next hstep
  have hfetch := fetches_of_decode hdecode
  have hstays : ∀ {j b accesses clocks u}, StepRuns s j b accesses clocks u → u.ip = s.ip := by
    rintro j b accesses clocks u ⟨hstep', -⟩
    rw [← Host.Outcome.next.inj (hstep.symm.trans hstep'), hip]
  obtain ⟨hjmp, hjmpR⟩ := jmpLoadsIp
  obtain ⟨hjnz, hjnzSkip, hjnzR⟩ := jnzJumpsWhenZClear
  obtain ⟨hjz, hjzSkip, hjzR⟩ := jzJumpsWhenZSet
  have hjump := isJump_of_ip_eq hexec hip
  cases i
  case jmpAddress n =>
    obtain ⟨u, hruns, hu, -⟩ := hjmp s n hfetch
    obtain rfl : n = s.ip := hu.symm.trans (hstays hruns)
    exact .inl hfetch
  case jmpR =>
    obtain ⟨u, hruns, hu, -⟩ := hjmpR s hfetch
    exact .inr (.inl ⟨hfetch, hu.symm.trans (hstays hruns)⟩)
  case jnzAddress n =>
    cases hz : s.z with
    | false =>
      obtain ⟨u, hruns, hu, -⟩ := hjnz s n hfetch hz
      obtain rfl : n = s.ip := hu.symm.trans (hstays hruns)
      exact .inr (.inr (.inl ⟨hfetch, hz⟩))
    | true =>
      obtain ⟨u, hruns, hu, -⟩ := hjnzSkip s n hfetch hz
      exact absurd (hu.symm.trans (hstays hruns)) (ip_add_two_ne _)
  case jzAddress n =>
    cases hz : s.z with
    | true =>
      obtain ⟨u, hruns, hu, -⟩ := hjz s n hfetch hz
      obtain rfl : n = s.ip := hu.symm.trans (hstays hruns)
      exact .inr (.inr (.inr (.inl ⟨hfetch, hz⟩)))
    | false =>
      obtain ⟨u, hruns, hu, -⟩ := hjzSkip s n hfetch hz
      exact absurd (hu.symm.trans (hstays hruns)) (ip_add_two_ne _)
  case jnzR =>
    obtain ⟨u, hruns, hu, -⟩ := hjnzR s hfetch
    obtain ⟨hz, hr⟩ := taken_of_ip_eq (hu.symm.trans (hstays hruns))
    exact .inr (.inr (.inr (.inr (.inl ⟨hfetch, hr, hz⟩))))
  case jzR =>
    obtain ⟨u, hruns, hu, -⟩ := hjzR s hfetch
    obtain ⟨hz, hr⟩ := taken_of_ip_eq (hu.symm.trans (hstays hruns))
    exact .inr (.inr (.inr (.inr (.inr ⟨hfetch, hr, hz⟩))))
  all_goals cases hjump

/-- Settles O53: a step that leaves IP alone runs a jump, and a jump reaches IP only where it is taken and to IP. -/
theorem haltedIffSelfJump : Obligations.HaltedIffSelfJump :=
  fun _ => ⟨selfJump_of_isHalted, isHalted_of_selfJump⟩

end Sys2Proof.Machine
